-- ==== Sys2Proof/Word.lean ====
section
/-! DEFINITION. The word types of OTPE: a byte, the 32-bit word every host access moves, and the 64-bit
number that `COUNTER` and `TIME` hold (00_scope.md R6, R7). -/

namespace Sys2Proof

/-- One byte of `PASS_IN`, `PASS_OUT`, `SECRET` or of a hash input (00_scope.md R7). -/
abbrev Byte := BitVec 8

/-- What one host access moves (`WORD_BITS` = 32, 00_scope.md R6). -/
abbrev Word := BitVec 32

/-- A 64-bit register: `COUNTER` (`COUNTER_BITS`) or `TIME` (`TIME_BITS`), 00_scope.md R6. -/
abbrev DWord := BitVec 64

end Sys2Proof
end

