-- ==== Sys2Proof/Syntax.lean ====
section
/-! DEFINITION. The nine commands of OTPE (00_scope.md R2, 30_encoding.md R61), one constructor per row of
spec/opcode_table.json. No command carries an operand (30_encoding.md R63). -/

namespace Sys2Proof

/-- A command. Each docstring names the document's operation and the rule that gives the meaning. -/
inductive Instr where
  /-- `GeneratePasscode`, 41_hotp.md R87. -/
  | hotpGen
  /-- HotpEngine `Validate`, 41_hotp.md R88. -/
  | hotpVal
  /-- `CounterFromTime`, 42_totp.md R101. -/
  | totpCtr
  /-- TotpEngine `Validate`, 42_totp.md R104. -/
  | totpVal
  /-- Setter of the digit count, 43_config.md R120. -/
  | cfgSetDigits
  /-- Setter of the algorithm, 43_config.md R121. -/
  | cfgSetAlg
  /-- Setter of the period, 43_config.md R122. -/
  | cfgSetPeriod
  /-- Setter of the skew, 43_config.md R123. -/
  | cfgSetSkew
  /-- `NewConfig` with explicit values, 43_config.md R124. -/
  | cfgNew
  deriving DecidableEq, Repr

/-- The nine commands in the order of 30_encoding.md R61. -/
def Instr.all : List Instr :=
  [.hotpGen, .hotpVal, .totpCtr, .totpVal, .cfgSetDigits, .cfgSetAlg, .cfgSetPeriod, .cfgSetSkew, .cfgNew]

end Sys2Proof
end

