-- ==== Sys2Proof/WellFormed.lean ====
section
/-! DEFINITION. Well-formedness. A command has no field that could be out of range (30_encoding.md R63), so every `Instr`
is well formed; what can be ill formed is the 32-bit word written to `CMD` (30_encoding.md R60, R62) and the byte
offset of a host access (20_memory.md R40), and each has its check here, written from the rule and not from the decoder. -/

namespace Sys2Proof.WellFormed

/-- Every command is well formed: format N has no operand field (30_encoding.md R60, R63). -/
def instr : Instr → Bool
  | .hotpGen | .hotpVal | .totpCtr | .totpVal => true
  | .cfgSetDigits | .cfgSetAlg | .cfgSetPeriod | .cfgSetSkew | .cfgNew => true

/-- The check of bits [31:8] of a command word (30_encoding.md R60, field `zero`). -/
def upperZero (w : Word) : Bool := w.extractLsb' 8 24 == 0

/-- The check of bits [7:0] of a command word: one of the nine opcodes of 30_encoding.md R61. -/
def opcodeListed (w : Word) : Bool :=
  let op := (w.extractLsb' 0 8).toNat
  (0x01 ≤ op && op ≤ 0x04) || (0x10 ≤ op && op ≤ 0x14)

/-- A word is legal when neither clause of 30_encoding.md R62 makes it illegal. -/
def commandWord (w : Word) : Bool := upperZero w && opcodeListed w

/-- A byte offset that an operation of the host port can carry: a multiple of 4 from 0 to 0xFFC (20_memory.md R40). -/
def accessOffset (off : Nat) : Bool := off % 4 == 0 && off ≤ 0xFFC

end Sys2Proof.WellFormed
end

