-- ==== Sys2Proof/Decode.lean ====
section
/-! DEFINITION. Decoding and encoding of command words (30_encoding.md R60 to R64). The command is a function of the 32-bit
word alone. The decoder is total and rejects by name; what the block does with a rejected word is R62, in
Machine/Port.lean. -/

namespace Sys2Proof

/-- Why a word is no command (30_encoding.md R62). -/
inductive DecodeError where
  /-- Bits [31:8] are not zero. -/
  | upperBitsNotZero
  /-- Bits [7:0] are none of the nine opcodes. -/
  | unknownOpcode
  deriving DecidableEq, Repr

/-- The opcode map of 30_encoding.md R61, complete: opcode byte and command. -/
def opcodeTable : List (Byte × Instr) :=
  [(0x01, .hotpGen), (0x02, .hotpVal), (0x03, .totpCtr), (0x04, .totpVal),
   (0x10, .cfgSetDigits), (0x11, .cfgSetAlg), (0x12, .cfgSetPeriod), (0x13, .cfgSetSkew), (0x14, .cfgNew)]

/-- Field `opcode` of format N, bits [7:0] (30_encoding.md R60). -/
def opcodeField (w : Word) : Byte := w.extractLsb' 0 8

/-- Field `zero` of format N, bits [31:8] (30_encoding.md R60). -/
def zeroField (w : Word) : BitVec 24 := w.extractLsb' 8 24

/-- The decoder: total on every 32-bit word (30_encoding.md R60 to R62). -/
def decode (w : Word) : Except DecodeError Instr :=
  if zeroField w = 0 then
    match opcodeTable.lookup (opcodeField w) with
    | some i => .ok i
    | none => .error .unknownOpcode
  else .error .upperBitsNotZero

/-- The word of each command, column `word` of 30_encoding.md R61. -/
def encode : Instr → Word
  | .hotpGen => 0x00000001
  | .hotpVal => 0x00000002
  | .totpCtr => 0x00000003
  | .totpVal => 0x00000004
  | .cfgSetDigits => 0x00000010
  | .cfgSetAlg => 0x00000011
  | .cfgSetPeriod => 0x00000012
  | .cfgSetSkew => 0x00000013
  | .cfgNew => 0x00000014

/-- The 32-bit command word of an instruction whose bits are `w`, numbered as the opcode table numbers them, `nbits` of them
given and the rest zero. A command word is a number written to one register, so no byte order enters. `none` when a bit
above bit 31 is set, since no command is longer than 32 bits (30_encoding.md R60). DESIGN CHOICE (log entry 13). -/
def tableWord (nbits w : Nat) : Option Word :=
  if w % 2 ^ nbits < 2 ^ 32 then some (BitVec.ofNat 32 (w % 2 ^ nbits)) else none

/-- The instruction the decoder reads from an instruction whose bits are `w` (the host's entry point). -/
def decodeTableWord (nbits w : Nat) : Option Instr :=
  match tableWord nbits w with
  | some v => (decode v).toOption
  | none => none

end Sys2Proof
end

