-- ==== Sys2Proof/Config.lean ====
section
/-! DEFINITION. What an implementation of OTPE fixes (00_scope.md R6): the open size of the secret buffer, as a
parameter that every legal value can take, and the document's two defaults. There is no free value: 93_implementation_defined.md
Part 1 gives every open behaviour a defined result. -/

namespace Sys2Proof

/-- The implementation's parameters. `SECRET_MAX` is OPEN in 00_scope.md R6: a multiple of 4 from 4 to 3840.
`secretWordsLess1` counts the words of the secret buffer less one, so that its 960 values are exactly the legal ones.
DESIGN CHOICE (log entry 4): the parameter stands in State, where no step changes it. -/
structure Params where
  secretWordsLess1 : Fin 960
  deriving DecidableEq, Repr

/-- `SECRET_MAX`, the size of the secret buffer in bytes (00_scope.md R6). -/
def Params.secretMax (p : Params) : Nat := 4 * (p.secretWordsLess1.val + 1)

/-- The suggested `SECRET_MAX = 256` of 00_scope.md R6, with which 95_test_vectors.md is computed.
DESIGN CHOICE (log entry 4): the state after reset carries it. -/
def Params.suggested : Params := ⟨63⟩

/-- `PERIOD_DEFAULT`, 30 seconds (00_scope.md R6). -/
def periodDefault : Word := 30

/-- `SKEW_DEFAULT`, 1 (00_scope.md R6). -/
def skewDefault : Word := 1

end Sys2Proof
end

