-- ==== Sys2Proof/Machine/State.lean ====
section
/-! DEFINITION. The architectural state of OTPE (10_state.md R10), the types its fields and operations use, the two kinds of
stop, and the state after reset (70_reset_and_hazards.md R200). -/

namespace Sys2Proof.Machine

/-- The secret buffer, as (byte index, byte) pairs: indices strictly rising, no byte 0 listed, because an unlisted index
reads 0, the reset value of every byte (10_state.md R22, 70_reset_and_hazards.md R200). See `Memory.wf`. -/
abbrev Memory := List Host.Cell

/-- The word index of a host access: the port carries address bits [11:2] only, so no misaligned or narrow access and none
outside the window can be expressed (20_memory.md R40). -/
abbrev WordIndex := BitVec 10

/-- What reaches the block from outside: the two operations of the host port (20_memory.md R40) and the reset input
(70_reset_and_hazards.md R201). DESIGN CHOICE (log entries 1 and 3): one serial stream of them is held in State. -/
inductive HostEvent where
  /-- `HostRead(off)` with `off = 4 * ix`. -/
  | read (ix : WordIndex)
  /-- `HostWrite(off, w)` with `off = 4 * ix`. -/
  | write (ix : WordIndex) (w : Word)
  /-- The external reset. -/
  | reset
  deriving DecidableEq, Repr

/-- HashAlgorithm, `ALG_SET` (00_scope.md R6, 10_state.md R12). -/
inductive HashAlg where
  | sha1
  | sha256
  | sha512
  | md5
  deriving DecidableEq, Repr

/-- DigitCount, `DIGITS_SET` (00_scope.md R6, 10_state.md R11). -/
inductive DigitCount where
  | six
  | eight
  deriving DecidableEq, Repr

/-- The error kinds of 60_exceptions.md R170 (code 0, success, is no error). `invalidSecretEncoding` is reserved: no rule
of the block raises it. -/
inductive ErrorKind where
  | invalidSecretEncoding
  | invalidConfig
  | invalidParameter
  | invalidDigitsLength
  | illegalCommand
  | secretLength
  | truncationRange
  deriving DecidableEq, Repr

/-- What a word of the window is (20_memory.md R41). -/
inductive Place where
  | cmd
  | status
  | cfg
  | period
  | skew
  | arg0
  | arg1
  | arg2
  | arg3
  | counterLo
  | counterHi
  | timeLo
  | timeHi
  | passIn0
  | passIn1
  | passLen
  | passOut0
  | passOut1
  | passOutLen
  | secretLen
  /-- `SECRET_W[w]`, bytes `4w .. 4w+3` of the buffer. -/
  | secretW (w : Nat)
  | reserved
  deriving DecidableEq, Repr

/-- The three outcomes of the window search of 42_totp.md R103. -/
inductive WindowResult where
  | matched
  | faulted
  | unmatched
  deriving DecidableEq, Repr

/-- The reasons the machine stops with a fault. There are NONE: every operation of the block is total, an error is a
code in `STATUS.ERR`, and no access is refused (20_memory.md R40, 60_exceptions.md R173, R174, 70_reset_and_hazards.md
R208). Nobody raises a fault; leaving the type empty is safe (log entry 10). -/
inductive Fault where
  deriving DecidableEq, Repr

/-- The reasons a step has no meaning. -/
inductive Refusal where
  /-- Raised by an arm of `exec` for a command that has no meaning yet; no arm does. Safe. -/
  | notModelled (mnemonic : String)
  deriving DecidableEq, Repr

/-- The state: every item of 10_state.md R10, then three fields of the model's own. -/
structure State where
  /-- `CFG.DIGITS`, 0 is unset (10_state.md R11). -/
  digits : BitVec 4
  /-- `CFG.ALG`, 0 is unset (10_state.md R12). -/
  alg : BitVec 3
  /-- `PERIOD` in seconds (10_state.md R14). -/
  period : Word
  /-- `SKEW` (10_state.md R15). -/
  skew : Word
  /-- `ARG0` (10_state.md R17). -/
  arg0 : Word
  /-- `ARG1` (10_state.md R17). -/
  arg1 : Word
  /-- `ARG2` (10_state.md R17). -/
  arg2 : Word
  /-- `ARG3` (10_state.md R17). -/
  arg3 : Word
  /-- `COUNTER` (10_state.md R18). -/
  counter : DWord
  /-- `TIME`, whole seconds since the epoch in two's complement (10_state.md R19). -/
  time : DWord
  /-- `PASS_IN[0..7]`, the supplied passcode (10_state.md R20). -/
  passIn : Vector Byte 8
  /-- `PASS_LEN` (10_state.md R21). -/
  passLen : BitVec 8
  /-- `SECRET[0..SECRET_MAX-1]` (10_state.md R22). -/
  secret : Memory
  /-- `SECRET_LEN` (10_state.md R23). -/
  secretLen : BitVec 16
  /-- `PASS_OUT[0..7]` (10_state.md R24). -/
  passOut : Vector Byte 8
  /-- `PASS_OUT_LEN` (10_state.md R25). -/
  passOutLen : BitVec 4
  /-- `STATUS.ERR` (10_state.md R26). -/
  err : BitVec 4
  /-- `STATUS.MATCH` (10_state.md R26). -/
  matchFlag : Bool
  /-- The implementation's parameters (00_scope.md R6), which no step changes: the model's own field (log entry 4). -/
  params : Params
  /-- The stream of accesses and resets still to come (20_memory.md R50): the model's own field (log entry 1). -/
  pending : List HostEvent
  /-- What `HostRead` has returned so far, oldest first (20_memory.md R40): the model's own field (log entry 1). -/
  replies : List Word
  deriving DecidableEq, Repr

/-- Eight bytes of 0, the reset value of `PASS_IN` and `PASS_OUT` (10_state.md R20, R24). -/
def zeroBytes8 : Vector Byte 8 := Vector.replicate 8 0

/-- The machine right after reset (70_reset_and_hazards.md R200, 10_state.md R30), with nothing pending: it is idle until
the first host access (70_reset_and_hazards.md R201). -/
def State.reset : State where
  digits := 0
  alg := 0
  period := periodDefault
  skew := skewDefault
  arg0 := 0
  arg1 := 0
  arg2 := 0
  arg3 := 0
  counter := 0
  time := 0
  passIn := zeroBytes8
  passLen := 0
  secret := []
  secretLen := 0
  passOut := zeroBytes8
  passOutLen := 0
  err := 0
  matchFlag := false
  params := Params.suggested
  pending := []
  replies := []

end Sys2Proof.Machine
end

