-- ==== Sys2Proof/Machine/Bytes.lean ====
section
/-! DEFINITION. Byte order and bit fields (00_scope.md R7, 20_memory.md R44, R45, 48_hmac_hash.md R142). -/

namespace Sys2Proof.Machine

/-- Byte `i` of a value, counted from its least significant end: bits `[8i+7 : 8i]` (00_scope.md R7). -/
def byteOf {n : Nat} (x : BitVec n) (i : Nat) : Byte := x.extractLsb' (8 * i) 8

/-- The `k` bytes of a value, least significant first: `LE32`, `LE64` (00_scope.md R7). -/
def leBytes {n : Nat} (k : Nat) (x : BitVec n) : List Byte := (List.range k).map fun i => byteOf x i

/-- The `k` bytes of a value, most significant first: `BE32`, `BE64`, `BE128` (00_scope.md R7). -/
def beBytes {n : Nat} (k : Nat) (x : BitVec n) : List Byte := (List.range k).map fun i => byteOf x (k - 1 - i)

/-- The value whose bytes, most significant first, are `bs`. -/
def ofBEBytes (n : Nat) (bs : List Byte) : BitVec n :=
  bs.foldl (fun acc b => (acc <<< 8) ||| b.setWidth n) 0

/-- The value whose bytes, least significant first, are `bs`. -/
def ofLEBytes (n : Nat) (bs : List Byte) : BitVec n := ofBEBytes n bs.reverse

/-- `BE64(c)`, the HMAC message of a counter (20_memory.md R45). -/
def be64 (c : DWord) : List Byte := beBytes 8 c

/-- `sint64(v)` (00_scope.md R7). -/
def sint64 (v : DWord) : Int := v.toInt

/-- Two halves as one 64-bit number: `hi` in bits [63:32], `lo` in bits [31:0] (20_memory.md R44). -/
def joinWords (hi lo : Word) : DWord := (hi.setWidth 64 <<< 32) ||| lo.setWidth 64

/-- Four bytes in one word, byte `k` in bits `[8k+7 : 8k]` (20_memory.md R44). -/
def packBytes (b0 b1 b2 b3 : Byte) : Word :=
  (b3.setWidth 32 <<< 24) ||| (b2.setWidth 32 <<< 16) ||| (b1.setWidth 32 <<< 8) ||| b0.setWidth 32

/-- Word `w` (0 or 1) of an eight-byte buffer: its byte `4w+k` in bits `[8k+7 : 8k]` (20_memory.md R44). -/
def laneWord (v : Vector Byte 8) (w : Fin 2) : Word :=
  packBytes v[4 * w.val] v[4 * w.val + 1] v[4 * w.val + 2] v[4 * w.val + 3]

/-- The buffer with its word `w` (0 or 1) replaced: byte `4w+k` becomes bits `[8k+7 : 8k]` of `x`, the other four bytes
stay (20_memory.md R44). -/
def withLaneWord (v : Vector Byte 8) (w : Fin 2) (x : Word) : Vector Byte 8 :=
  Vector.ofFn fun i : Fin 8 => if i.val / 4 = w.val then byteOf x (i.val % 4) else v[i]

/-- Bits [31:0] of a 64-bit register (20_memory.md R44). -/
def loWord (x : DWord) : Word := x.extractLsb' 0 32

/-- Bits [63:32] of a 64-bit register (20_memory.md R44). -/
def hiWord (x : DWord) : Word := x.extractLsb' 32 32

/-- The register with bits [31:0] replaced and bits [63:32] kept (20_memory.md R43). -/
def withLoWord (x : DWord) (w : Word) : DWord := joinWords (hiWord x) w

/-- The register with bits [63:32] replaced and bits [31:0] kept (20_memory.md R43). -/
def withHiWord (x : DWord) (w : Word) : DWord := joinWords w (loWord x)

end Sys2Proof.Machine
end

