-- ==== Sys2Proof/Machine/Flags.lean ====
section
/-! DEFINITION. The flags and codes: error codes (60_exceptions.md R170), the encodings of the configuration fields
(10_state.md R11, R12), and the words `STATUS` and `CFG` (10_state.md R13, R26). -/

namespace Sys2Proof.Machine

/-- `code(E)` (60_exceptions.md R170). -/
def ErrorKind.code : ErrorKind → BitVec 4
  | .invalidSecretEncoding => 1
  | .invalidConfig => 2
  | .invalidParameter => 3
  | .invalidDigitsLength => 4
  | .illegalCommand => 5
  | .secretLength => 6
  | .truncationRange => 7

/-- The digit count as a number (10_state.md R11). -/
def DigitCount.toNat : DigitCount → Nat
  | .six => 6
  | .eight => 8

/-- The digit count a number stands for: the set {6, 8} (43_config.md R126). -/
def digitCountOf (n : Nat) : Option DigitCount :=
  if n = 6 then some .six else if n = 8 then some .eight else none

/-- The number of an algorithm, its encoding in `CFG.ALG` (10_state.md R12). -/
def HashAlg.number : HashAlg → Nat
  | .sha1 => 1
  | .sha256 => 2
  | .sha512 => 3
  | .md5 => 4

/-- The algorithm a number stands for: 1 SHA1, 2 SHA256, 3 SHA512, 4 MD5 (10_state.md R12, 43_config.md R126). -/
def hashAlgOf (n : Nat) : Option HashAlg :=
  if n = 1 then some .sha1
  else if n = 2 then some .sha256
  else if n = 3 then some .sha512
  else if n = 4 then some .md5
  else none

/-- The word `STATUS`: `ERR` in [3:0], `MATCH` in [4], the rest 0 (10_state.md R26). -/
def State.statusWord (s : State) : Word := ((BitVec.ofBool s.matchFlag).setWidth 32 <<< 4) ||| s.err.setWidth 32

/-- The word `CFG`: `DIGITS` in [3:0], `ALG` in [10:8], the rest 0 (10_state.md R13). -/
def State.cfgWord (s : State) : Word := (s.alg.setWidth 32 <<< 8) ||| s.digits.setWidth 32

end Sys2Proof.Machine
end

