-- ==== Sys2Proof/Machine/Ops.lean ====
section
/-! DEFINITION. The named operations over the secret buffer, the registers and the host port: memory (10_state.md R22,
20_memory.md R48), clearing the results and raising an error (60_exceptions.md R173), the address map and the access
rights (20_memory.md R41, R43), and reset (70_reset_and_hazards.md R200). -/

namespace Sys2Proof.Machine

/-! ### The secret buffer -/

/-- What an unlisted byte of the buffer reads as: 0, its reset value (70_reset_and_hazards.md R200). -/
def unlistedByte : Byte := 0

/-- One byte of the buffer, `SECRET[a]` (00_scope.md R8). -/
def Memory.read (m : Memory) (a : Nat) : Byte :=
  match m with
  | [] => unlistedByte
  | (k, v) :: rest => if k = a then v else Memory.read rest a

/-- The canonical form of the buffer with `SECRET[a] <- b`: rising indices, no unlisted value listed. -/
def Memory.write (m : Memory) (a : Nat) (b : Byte) : Memory :=
  match m with
  | [] => if b = unlistedByte then [] else [(a, b)]
  | (k, v) :: rest =>
    if a < k then
      if b = unlistedByte then (k, v) :: rest else (a, b) :: (k, v) :: rest
    else if a = k then
      if b = unlistedByte then rest else (a, b) :: rest
    else (k, v) :: Memory.write rest a b

/-- The canonical form: indices strictly rising from `lo`, and no entry equal to what an unlisted index reads as. -/
def Memory.wfFrom (lo : Nat) (m : Memory) : Bool :=
  match m with
  | [] => true
  | (k, v) :: rest => lo ≤ k && v != unlistedByte && Memory.wfFrom (k + 1) rest

/-- The canonical form of the buffer, in which equal buffers are equal lists. -/
def Memory.wf (m : Memory) : Bool := Memory.wfFrom 0 m

/-- Every listed index lies below `limit`, the size of the buffer. -/
def Memory.within (limit : Nat) (m : Memory) : Bool := m.all fun c => c.1 < limit

/-- `SECRET_W[k] <- w`: `SECRET[4k+j] <- w[8j+7 : 8j]` for `j = 0..3` (20_memory.md R43). -/
def Memory.writeWord (m : Memory) (k : Nat) (w : Word) : Memory :=
  Memory.write
    (Memory.write
      (Memory.write
        (Memory.write m (4 * k) (byteOf w 0))
        (4 * k + 1) (byteOf w 1))
      (4 * k + 2) (byteOf w 2))
    (4 * k + 3) (byteOf w 3)

/-- `MemRead(a, n)` (00_scope.md R8). -/
def Memory.readBytes (m : Memory) (a n : Nat) : List Byte := (List.range n).map fun i => Memory.read m (a + i)

/-! ### Results and errors -/

/-- `ClearResults`, the first action of every write to `CMD` (60_exceptions.md R173). -/
def clearResults (s : State) : State :=
  { s with err := 0, matchFlag := false, passOut := zeroBytes8, passOutLen := 0 }

/-- `raise E`, taking an error: the code goes to `STATUS.ERR` and nothing else changes (00_scope.md R8, 60_exceptions.md
R173). No register is saved, no mode changes, control goes nowhere, and there is no return from an error: the next `CMD`
write clears the code through `clearResults` (60_exceptions.md R174). -/
def raise (e : ErrorKind) (s : State) : State := { s with err := e.code }

/-- `STATUS.MATCH <- b` (10_state.md R26). -/
def setMatch (b : Bool) (s : State) : State := { s with matchFlag := b }

/-- Eight bytes holding `bs` from byte 0 on, the remaining bytes 0 (10_state.md R24). -/
def padBytes8 (bs : List Byte) : Vector Byte 8 := Vector.ofFn fun i : Fin 8 => bs.getD i.val 0

/-- `PASS_OUT` and `PASS_OUT_LEN` of a successful generation: the passcode's bytes, the remaining bytes 0, and its
length, the configured digit count (10_state.md R24, R25, 41_hotp.md R87). -/
def putPasscode (bs : List Byte) (s : State) : State :=
  { s with passOut := padBytes8 bs, passOutLen := s.digits }

/-- What a word that is no command does: the results are cleared, `IllegalCommand` is reported, nothing else changes
(30_encoding.md R62). -/
def illegalCommand (s : State) : State := raise .illegalCommand (clearResults s)

/-! ### Writes of the configuration and of the counter -/

/-- `COUNTER <- c` (42_totp.md R101). -/
def setCounter (c : DWord) (s : State) : State := { s with counter := c }

/-- `CFG.DIGITS <- a[3:0]` (43_config.md R120). -/
def setDigits (a : Word) (s : State) : State := { s with digits := a.extractLsb' 0 4 }

/-- `CFG.ALG <- a[2:0]` (43_config.md R121). -/
def setAlg (a : Word) (s : State) : State := { s with alg := a.extractLsb' 0 3 }

/-- `PERIOD <- a` (43_config.md R122). -/
def setPeriod (a : Word) (s : State) : State := { s with period := a }

/-- `SKEW <- a` (43_config.md R123). -/
def setSkew (a : Word) (s : State) : State := { s with skew := a }

/-! ### The host port -/

/-- The byte offset of a word index (20_memory.md R40). -/
def offsetOf (ix : WordIndex) : Nat := 4 * ix.toNat

/-- The rows of the address map of 20_memory.md R41 that do not depend on `SECRET_MAX`: offset and name. -/
def registerMap : List (Nat × Place) :=
  [(0x000, .cmd), (0x004, .status), (0x008, .cfg), (0x00C, .period), (0x010, .skew),
   (0x014, .arg0), (0x018, .arg1), (0x01C, .arg2), (0x020, .arg3),
   (0x024, .counterLo), (0x028, .counterHi), (0x02C, .timeLo), (0x030, .timeHi),
   (0x034, .passIn0), (0x038, .passIn1), (0x03C, .passLen),
   (0x040, .passOut0), (0x044, .passOut1), (0x048, .passOutLen), (0x04C, .secretLen)]

/-- Where the secret buffer begins in the window (20_memory.md R41). -/
def secretBase : Nat := 0x100

/-- The address map (20_memory.md R41): a named register, a word of the secret buffer, or a reserved offset. -/
def placeAt (p : Params) (off : Nat) : Place :=
  match registerMap.lookup off with
  | some r => r
  | none =>
    if secretBase ≤ off ∧ off < secretBase + p.secretMax then .secretW ((off - secretBase) / 4) else .reserved

/-- What a read of a place returns: a readable register's value with its unnamed bits 0, and 0 for a write-only place or a
reserved offset (20_memory.md R43). -/
def readPlace (s : State) : Place → Word
  | .cmd => 0
  | .status => s.statusWord
  | .cfg => s.cfgWord
  | .period => s.period
  | .skew => s.skew
  | .arg0 => s.arg0
  | .arg1 => s.arg1
  | .arg2 => s.arg2
  | .arg3 => s.arg3
  | .counterLo => loWord s.counter
  | .counterHi => hiWord s.counter
  | .timeLo => loWord s.time
  | .timeHi => hiWord s.time
  | .passIn0 => laneWord s.passIn 0
  | .passIn1 => laneWord s.passIn 1
  | .passLen => s.passLen.setWidth 32
  | .passOut0 => laneWord s.passOut 0
  | .passOut1 => laneWord s.passOut 1
  | .passOutLen => s.passOutLen.setWidth 32
  | .secretLen => s.secretLen.setWidth 32
  | .secretW _ => 0
  | .reserved => 0

/-- `HostRead(off)` (20_memory.md R43): the word it returns. It changes no state. -/
def hostRead (s : State) (ix : WordIndex) : Word := readPlace s (placeAt s.params (offsetOf ix))

/-- What a write to a place other than `CMD` does: store the bits a writable register has, and ignore the write of a
read-only register or of a reserved offset (20_memory.md R43). A `CMD` write runs a command instead and is not handled
here (Machine/Port.lean). -/
def storePlace (w : Word) (s : State) : Place → State
  | .cmd => s
  | .status => s
  | .cfg => s
  | .period => s
  | .skew => s
  | .arg0 => { s with arg0 := w }
  | .arg1 => { s with arg1 := w }
  | .arg2 => { s with arg2 := w }
  | .arg3 => { s with arg3 := w }
  | .counterLo => { s with counter := withLoWord s.counter w }
  | .counterHi => { s with counter := withHiWord s.counter w }
  | .timeLo => { s with time := withLoWord s.time w }
  | .timeHi => { s with time := withHiWord s.time w }
  | .passIn0 => { s with passIn := withLaneWord s.passIn 0 w }
  | .passIn1 => { s with passIn := withLaneWord s.passIn 1 w }
  | .passLen => { s with passLen := w.extractLsb' 0 8 }
  | .passOut0 => s
  | .passOut1 => s
  | .passOutLen => s
  | .secretLen => { s with secretLen := w.extractLsb' 0 16 }
  | .secretW k => { s with secret := Memory.writeWord s.secret k w }
  | .reserved => s

/-- The state with one more word returned to the host. DESIGN CHOICE (log entry 1). -/
def pushReply (w : Word) (s : State) : State := { s with replies := s.replies ++ [w] }

/-- Reset: every item of 10_state.md R10 takes its reset value (70_reset_and_hazards.md R200). The parameters, the stream
still to come and the words already returned are not the block's state and stay. DESIGN CHOICE (log entry 3). -/
def applyReset (s : State) : State :=
  { State.reset with params := s.params, pending := s.pending, replies := s.replies }

end Sys2Proof.Machine
end

