-- ==== Sys2Proof/Machine/Configure.lean ====
section
/-! DEFINITION. The configuration family (43_config.md R120 to R128): each command tests its arguments first and writes the
configuration only when every test has passed (R125). An argument is compared as a full 32-bit number (10_state.md R17). -/

namespace Sys2Proof.Machine

/-- The digits argument is in {6, 8} (43_config.md R126). -/
def digitsArgLegal (a : Word) : Bool := a == 6 || a == 8

/-- The algorithm argument is in {1, 2, 3, 4} (43_config.md R126). -/
def algArgLegal (a : Word) : Bool := 1 ≤ a.toNat && a.toNat ≤ 4

/-- The period argument is in 1 .. 2^32-1 (43_config.md R126). -/
def periodArgLegal (a : Word) : Bool := a != 0

/-- `CFG_SET_DIGITS` (43_config.md R120). -/
def execCfgSetDigits (s : State) : Host.Outcome State Fault Refusal :=
  let s := clearResults s
  if digitsArgLegal s.arg0 then .next (setDigits s.arg0 s) else .next (raise .invalidParameter s)

/-- `CFG_SET_ALG` (43_config.md R121). -/
def execCfgSetAlg (s : State) : Host.Outcome State Fault Refusal :=
  let s := clearResults s
  if algArgLegal s.arg0 then .next (setAlg s.arg0 s) else .next (raise .invalidParameter s)

/-- `CFG_SET_PERIOD` (43_config.md R122). -/
def execCfgSetPeriod (s : State) : Host.Outcome State Fault Refusal :=
  let s := clearResults s
  if periodArgLegal s.arg0 then .next (setPeriod s.arg0 s) else .next (raise .invalidParameter s)

/-- `CFG_SET_SKEW`: every argument is legal (43_config.md R123). -/
def execCfgSetSkew (s : State) : Host.Outcome State Fault Refusal :=
  let s := clearResults s
  .next (setSkew s.arg0 s)

/-- `CFG_NEW`: digits, algorithm and period are tested in this order, and the four registers are written together
(43_config.md R124, R127). -/
def execCfgNew (s : State) : Host.Outcome State Fault Refusal :=
  let s := clearResults s
  if !digitsArgLegal s.arg0 then .next (raise .invalidConfig s)
  else if !algArgLegal s.arg1 then .next (raise .invalidConfig s)
  else if !periodArgLegal s.arg2 then .next (raise .invalidParameter s)
  else .next (setSkew s.arg3 (setPeriod s.arg2 (setAlg s.arg1 (setDigits s.arg0 s))))

end Sys2Proof.Machine
end

