-- ==== Sys2Proof/Machine/Hash.lean ====
section
/-! DEFINITION. The four hash functions and HMAC, written out from 48_hmac_hash.md R140 to R146. The spec marks that whole
file as general knowledge; PRESUMED (log entry 7). -/

namespace Sys2Proof.Machine

/-! ### Lengths (R140) -/

/-- The digest length `L` in bytes (48_hmac_hash.md R140). -/
def HashAlg.digestLength : HashAlg → Nat
  | .sha1 => 20
  | .sha256 => 32
  | .sha512 => 64
  | .md5 => 16

/-- The block length `B` in bytes (48_hmac_hash.md R140). -/
def HashAlg.blockLength : HashAlg → Nat
  | .sha1 => 64
  | .sha256 => 64
  | .sha512 => 128
  | .md5 => 64

/-! ### Common notation and padding (R142) -/

/-- `rotl_w(x, n)` (48_hmac_hash.md R142). -/
def rotl {w : Nat} (x : BitVec w) (n : Nat) : BitVec w := (x <<< n) ||| (x >>> (w - n))

/-- `rotr_w(x, n)` (48_hmac_hash.md R142). -/
def rotr {w : Nat} (x : BitVec w) (n : Nat) : BitVec w := (x >>> n) ||| (x <<< (w - n))

/-- The fewest zero bytes that make `n + 1 + zeros + lenBytes` a multiple of `blk` (48_hmac_hash.md R142). -/
def padZeros (blk lenBytes n : Nat) : Nat := (blk - (n + 1 + lenBytes) % blk) % blk

/-- The bit length `8n` as `lenBytes` bytes, in the order `Pad` is given (48_hmac_hash.md R142). -/
def lengthBytes (bigEndian : Bool) (lenBytes n : Nat) : List Byte :=
  let bits : BitVec (8 * lenBytes) := BitVec.ofNat (8 * lenBytes) (8 * n)
  if bigEndian then beBytes lenBytes bits else leBytes lenBytes bits

/-- `Pad(m, blk, lenbytes, order)` (48_hmac_hash.md R142). -/
def padMessage (bigEndian : Bool) (blk lenBytes : Nat) (m : List Byte) : List Byte :=
  m ++ [0x80] ++ List.replicate (padZeros blk lenBytes m.length) 0 ++ lengthBytes bigEndian lenBytes m.length

/-- The first `n` groups of `k` bytes of a sequence. -/
def chunksOf (k : Nat) : Nat → List Byte → List (List Byte)
  | 0, _ => []
  | n + 1, bs => bs.take k :: chunksOf k n (bs.drop k)

/-- The `blk`-byte blocks of a padded message. -/
def blocksOf (blk : Nat) (m : List Byte) : List (List Byte) := chunksOf blk (m.length / blk) m

/-- The sixteen words of a block, each of `k` bytes, most significant byte first. -/
def blockWordsBE (n k : Nat) (block : List Byte) : List (BitVec n) := (chunksOf k 16 block).map (ofBEBytes n)

/-- The sixteen words of a block, each of `k` bytes, least significant byte first. -/
def blockWordsLE (n k : Nat) (block : List Byte) : List (BitVec n) := (chunksOf k 16 block).map (ofLEBytes n)

/-- Extends a message schedule, kept newest word first, by `n` words, each computed from those before it:
`W[t-j]` is entry `j - 1` of the list. -/
def extendSchedule {w : Nat} (next : List (BitVec w) → BitVec w) : Nat → List (BitVec w) → List (BitVec w)
  | 0, ws => ws
  | n + 1, ws => extendSchedule next n (next ws :: ws)

/-- `W[t-j]` in a schedule kept newest word first. -/
def back {w : Nat} (ws : List (BitVec w)) (j : Nat) : BitVec w := ws.getD (j - 1) 0

/-- The message schedule in order: the sixteen words of the block and `n` more. -/
def schedule {w : Nat} (next : List (BitVec w) → BitVec w) (n : Nat) (first : List (BitVec w)) : List (BitVec w) :=
  (extendSchedule next n first.reverse).reverse

/-- The words of a table of constants. Each line of the rule's table is one number here, its `k` words of `w` bits joined
in the order they stand, so that a line can be held beside the rule's (48_hmac_hash.md R144 to R146). -/
def tableWords (w k : Nat) (lines : List Nat) : List (BitVec w) :=
  lines.flatMap fun line => (List.range k).map fun i => BitVec.ofNat w (line >>> (w * (k - 1 - i)))

/-! ### SHA-1 (R143) -/

/-- The working variables of SHA-1, and its chaining value `h0..h4`. -/
structure Sha1Vars where
  a : Word
  b : Word
  c : Word
  d : Word
  e : Word
  deriving DecidableEq, Repr

/-- The initial `h0..h4` of SHA-1 (48_hmac_hash.md R143). -/
def sha1Init : Sha1Vars :=
  { a := 0x67452301, b := 0xEFCDAB89, c := 0x98BADCFE, d := 0x10325476, e := 0xC3D2E1F0 }

/-- `W[t]` of SHA-1 for `t >= 16` (48_hmac_hash.md R143). -/
def sha1Next (ws : List Word) : Word := rotl (back ws 3 ^^^ back ws 8 ^^^ back ws 14 ^^^ back ws 16) 1

/-- `f` of round `t` of SHA-1 (48_hmac_hash.md R143). -/
def sha1F (t : Nat) (b c d : Word) : Word :=
  if t < 20 then (b &&& c) ||| (~~~b &&& d)
  else if t < 40 then b ^^^ c ^^^ d
  else if t < 60 then (b &&& c) ||| (b &&& d) ||| (c &&& d)
  else b ^^^ c ^^^ d

/-- `K` of round `t` of SHA-1 (48_hmac_hash.md R143). -/
def sha1K (t : Nat) : Word :=
  if t < 20 then 0x5A827999 else if t < 40 then 0x6ED9EBA1 else if t < 60 then 0x8F1BBCDC else 0xCA62C1D6

/-- Round `t` of SHA-1 with schedule word `w` (48_hmac_hash.md R143). -/
def sha1Round (v : Sha1Vars) (tw : Nat × Word) : Sha1Vars :=
  { a := rotl v.a 5 + sha1F tw.1 v.b v.c v.d + v.e + sha1K tw.1 + tw.2
    b := v.a
    c := rotl v.b 30
    d := v.c
    e := v.d }

/-- One block of SHA-1 (48_hmac_hash.md R143). -/
def sha1Block (h : Sha1Vars) (block : List Byte) : Sha1Vars :=
  let ws := schedule sha1Next 64 (blockWordsBE 32 4 block)
  let v := ((List.range 80).zip ws).foldl sha1Round h
  { a := h.a + v.a, b := h.b + v.b, c := h.c + v.c, d := h.d + v.d, e := h.e + v.e }

/-- `Digest(SHA1, m)` (48_hmac_hash.md R143). -/
def sha1 (m : List Byte) : List Byte :=
  let h := (blocksOf 64 (padMessage true 64 8 m)).foldl sha1Block sha1Init
  beBytes 4 h.a ++ beBytes 4 h.b ++ beBytes 4 h.c ++ beBytes 4 h.d ++ beBytes 4 h.e

/-! ### SHA-256 and SHA-512 (R144, R145) -/

/-- The working variables of SHA-256 (32 bits) and SHA-512 (64 bits), and the chaining value `h0..h7`. -/
structure Sha2Vars (w : Nat) where
  (a b c d e f g h : BitVec w)
  deriving DecidableEq, Repr

/-- The eight words of a set of variables, in the rules' order. -/
def Sha2Vars.words {w : Nat} (v : Sha2Vars w) : List (BitVec w) := [v.a, v.b, v.c, v.d, v.e, v.f, v.g, v.h]

/-- The variables that hold eight words in the rules' order. -/
def Sha2Vars.ofWords {w : Nat} (ws : List (BitVec w)) : Sha2Vars w :=
  let word (i : Nat) := ws.getD i 0
  ⟨word 0, word 1, word 2, word 3, word 4, word 5, word 6, word 7⟩

/-- `ch` (48_hmac_hash.md R144, R145). -/
def sha2Ch {w : Nat} (e f g : BitVec w) : BitVec w := (e &&& f) ^^^ (~~~e &&& g)

/-- `maj` (48_hmac_hash.md R144, R145). -/
def sha2Maj {w : Nat} (a b c : BitVec w) : BitVec w := (a &&& b) ^^^ (a &&& c) ^^^ (b &&& c)

/-- One round of SHA-256 or SHA-512 with `S0`, `S1` given, `kw` the pair of round constant and schedule word
(48_hmac_hash.md R144, R145). -/
def sha2Round {w : Nat} (bigS0 bigS1 : BitVec w → BitVec w) (v : Sha2Vars w) (kw : BitVec w × BitVec w) : Sha2Vars w :=
  let t1 := v.h + bigS1 v.e + sha2Ch v.e v.f v.g + kw.1 + kw.2
  let t2 := bigS0 v.a + sha2Maj v.a v.b v.c
  ⟨t1 + t2, v.a, v.b, v.c, v.d + t1, v.e, v.f, v.g⟩

/-- The word by word sum of two sets of variables, at the end of a block (48_hmac_hash.md R144, R145). -/
def sha2Add {w : Nat} (h v : Sha2Vars w) : Sha2Vars w :=
  Sha2Vars.ofWords (List.zipWith (fun x y => x + y) h.words v.words)

/-- The digest bytes of the final `h0..h7`, `k` bytes a word, most significant first (48_hmac_hash.md R144, R145). -/
def sha2Bytes {w : Nat} (k : Nat) (h : Sha2Vars w) : List Byte := h.words.flatMap (beBytes k)

/-- The initial `h0..h7` of SHA-256 (48_hmac_hash.md R144). -/
def sha256Init : Sha2Vars 32 :=
  Sha2Vars.ofWords (tableWords 32 8
    [0x6a09e667bb67ae853c6ef372a54ff53a510e527f9b05688c1f83d9ab5be0cd19])

/-- Round constants `K[0..63]` of SHA-256 (48_hmac_hash.md R144). -/
def sha256K : List Word := tableWords 32 8
  [0x428a2f9871374491b5c0fbcfe9b5dba53956c25b59f111f1923f82a4ab1c5ed5,
   0xd807aa9812835b01243185be550c7dc372be5d7480deb1fe9bdc06a7c19bf174,
   0xe49b69c1efbe47860fc19dc6240ca1cc2de92c6f4a7484aa5cb0a9dc76f988da,
   0x983e5152a831c66db00327c8bf597fc7c6e00bf3d5a7914706ca635114292967,
   0x27b70a852e1b21384d2c6dfc53380d13650a7354766a0abb81c2c92e92722c85,
   0xa2bfe8a1a81a664bc24b8b70c76c51a3d192e819d6990624f40e3585106aa070,
   0x19a4c1161e376c082748774c34b0bcb5391c0cb34ed8aa4a5b9cca4f682e6ff3,
   0x748f82ee78a5636f84c878148cc7020890befffaa4506cebbef9a3f7c67178f2]

/-- `W[t]` of SHA-256 for `t >= 16` (48_hmac_hash.md R144). -/
def sha256Next (ws : List Word) : Word :=
  let s0 := rotr (back ws 15) 7 ^^^ rotr (back ws 15) 18 ^^^ (back ws 15 >>> 3)
  let s1 := rotr (back ws 2) 17 ^^^ rotr (back ws 2) 19 ^^^ (back ws 2 >>> 10)
  back ws 16 + s0 + back ws 7 + s1

/-- `S0` of SHA-256 (48_hmac_hash.md R144). -/
def sha256S0 (a : Word) : Word := rotr a 2 ^^^ rotr a 13 ^^^ rotr a 22

/-- `S1` of SHA-256 (48_hmac_hash.md R144). -/
def sha256S1 (e : Word) : Word := rotr e 6 ^^^ rotr e 11 ^^^ rotr e 25

/-- One block of SHA-256 (48_hmac_hash.md R144). -/
def sha256Block (h : Sha2Vars 32) (block : List Byte) : Sha2Vars 32 :=
  let ws := schedule sha256Next 48 (blockWordsBE 32 4 block)
  sha2Add h ((sha256K.zip ws).foldl (sha2Round sha256S0 sha256S1) h)

/-- `Digest(SHA256, m)` (48_hmac_hash.md R144). -/
def sha256 (m : List Byte) : List Byte :=
  sha2Bytes 4 ((blocksOf 64 (padMessage true 64 8 m)).foldl sha256Block sha256Init)

/-- The initial `h0..h7` of SHA-512 (48_hmac_hash.md R145). -/
def sha512Init : Sha2Vars 64 :=
  Sha2Vars.ofWords (tableWords 64 4
    [0x6a09e667f3bcc908bb67ae8584caa73b3c6ef372fe94f82ba54ff53a5f1d36f1,
     0x510e527fade682d19b05688c2b3e6c1f1f83d9abfb41bd6b5be0cd19137e2179])

/-- Round constants `K[0..79]` of SHA-512 (48_hmac_hash.md R145). -/
def sha512K : List DWord := tableWords 64 4
  [0x428a2f98d728ae227137449123ef65cdb5c0fbcfec4d3b2fe9b5dba58189dbbc,
   0x3956c25bf348b53859f111f1b605d019923f82a4af194f9bab1c5ed5da6d8118,
   0xd807aa98a303024212835b0145706fbe243185be4ee4b28c550c7dc3d5ffb4e2,
   0x72be5d74f27b896f80deb1fe3b1696b19bdc06a725c71235c19bf174cf692694,
   0xe49b69c19ef14ad2efbe4786384f25e30fc19dc68b8cd5b5240ca1cc77ac9c65,
   0x2de92c6f592b02754a7484aa6ea6e4835cb0a9dcbd41fbd476f988da831153b5,
   0x983e5152ee66dfaba831c66d2db43210b00327c898fb213fbf597fc7beef0ee4,
   0xc6e00bf33da88fc2d5a79147930aa72506ca6351e003826f142929670a0e6e70,
   0x27b70a8546d22ffc2e1b21385c26c9264d2c6dfc5ac42aed53380d139d95b3df,
   0x650a73548baf63de766a0abb3c77b2a881c2c92e47edaee692722c851482353b,
   0xa2bfe8a14cf10364a81a664bbc423001c24b8b70d0f89791c76c51a30654be30,
   0xd192e819d6ef5218d69906245565a910f40e35855771202a106aa07032bbd1b8,
   0x19a4c116b8d2d0c81e376c085141ab532748774cdf8eeb9934b0bcb5e19b48a8,
   0x391c0cb3c5c95a634ed8aa4ae3418acb5b9cca4f7763e373682e6ff3d6b2b8a3,
   0x748f82ee5defb2fc78a5636f43172f6084c87814a1f0ab728cc702081a6439ec,
   0x90befffa23631e28a4506cebde82bde9bef9a3f7b2c67915c67178f2e372532b,
   0xca273eceea26619cd186b8c721c0c207eada7dd6cde0eb1ef57d4f7fee6ed178,
   0x06f067aa72176fba0a637dc5a2c898a6113f9804bef90dae1b710b35131c471b,
   0x28db77f523047d8432caab7b40c724933c9ebe0a15c9bebc431d67c49c100d4c,
   0x4cc5d4becb3e42b6597f299cfc657e2a5fcb6fab3ad6faec6c44198c4a475817]

/-- `W[t]` of SHA-512 for `t >= 16` (48_hmac_hash.md R145). -/
def sha512Next (ws : List DWord) : DWord :=
  let s0 := rotr (back ws 15) 1 ^^^ rotr (back ws 15) 8 ^^^ (back ws 15 >>> 7)
  let s1 := rotr (back ws 2) 19 ^^^ rotr (back ws 2) 61 ^^^ (back ws 2 >>> 6)
  back ws 16 + s0 + back ws 7 + s1

/-- `S0` of SHA-512 (48_hmac_hash.md R145). -/
def sha512S0 (a : DWord) : DWord := rotr a 28 ^^^ rotr a 34 ^^^ rotr a 39

/-- `S1` of SHA-512 (48_hmac_hash.md R145). -/
def sha512S1 (e : DWord) : DWord := rotr e 14 ^^^ rotr e 18 ^^^ rotr e 41

/-- One block of SHA-512 (48_hmac_hash.md R145). -/
def sha512Block (h : Sha2Vars 64) (block : List Byte) : Sha2Vars 64 :=
  let ws := schedule sha512Next 64 (blockWordsBE 64 8 block)
  sha2Add h ((sha512K.zip ws).foldl (sha2Round sha512S0 sha512S1) h)

/-- `Digest(SHA512, m)` (48_hmac_hash.md R145). -/
def sha512 (m : List Byte) : List Byte :=
  sha2Bytes 8 ((blocksOf 128 (padMessage true 128 16 m)).foldl sha512Block sha512Init)

/-! ### MD5 (R146) -/

/-- The working variables of MD5, and its chaining value `a0..d0`. -/
structure Md5Vars where
  a : Word
  b : Word
  c : Word
  d : Word
  deriving DecidableEq, Repr

/-- The initial `a0..d0` of MD5 (48_hmac_hash.md R146). -/
def md5Init : Md5Vars := { a := 0x67452301, b := 0xEFCDAB89, c := 0x98BADCFE, d := 0x10325476 }

/-- Constants `T[0..63]` of MD5 (48_hmac_hash.md R146). -/
def md5T : List Word := tableWords 32 8
  [0xd76aa478e8c7b756242070dbc1bdceeef57c0faf4787c62aa8304613fd469501,
   0x698098d88b44f7afffff5bb1895cd7be6b901122fd987193a679438e49b40821,
   0xf61e2562c040b340265e5a51e9b6c7aad62f105d02441453d8a1e681e7d3fbc8,
   0x21e1cde6c33707d6f4d50d87455a14eda9e3e905fcefa3f8676f02d98d2a4c8a,
   0xfffa39428771f6816d9d6122fde5380ca4beea444bdecfa9f6bb4b60bebfbc70,
   0x289b7ec6eaa127fad4ef308504881d05d9d4d039e6db99e51fa27cf8c4ac5665,
   0xf4292244432aff97ab9423a7fc93a039655b59c38f0ccc92ffeff47d85845dd1,
   0x6fa87e4ffe2ce6e0a30143144e0811a1f7537e82bd3af2352ad7d2bbeb86d391]

/-- The shift amount `S[t]` of MD5: each group of sixteen rounds repeats its four amounts (48_hmac_hash.md R146). -/
def md5Shift (t : Nat) : Nat :=
  let row :=
    if t < 16 then [7, 12, 17, 22]
    else if t < 32 then [5, 9, 14, 20]
    else if t < 48 then [4, 11, 16, 23]
    else [6, 10, 15, 21]
  row.getD (t % 4) 0

/-- `F` of round `t` of MD5 before the additions (48_hmac_hash.md R146). -/
def md5F (t : Nat) (b c d : Word) : Word :=
  if t < 16 then (b &&& c) ||| (~~~b &&& d)
  else if t < 32 then (d &&& b) ||| (~~~d &&& c)
  else if t < 48 then b ^^^ c ^^^ d
  else c ^^^ (b ||| ~~~d)

/-- The index `g` of the message word of round `t` of MD5 (48_hmac_hash.md R146). -/
def md5Index (t : Nat) : Nat :=
  if t < 16 then t
  else if t < 32 then (5 * t + 1) % 16
  else if t < 48 then (3 * t + 5) % 16
  else (7 * t) % 16

/-- Round `t` of MD5 on the block's words `x` (48_hmac_hash.md R146). -/
def md5Round (x : List Word) (v : Md5Vars) (t : Nat) : Md5Vars :=
  let f := md5F t v.b v.c v.d + v.a + md5T.getD t 0 + x.getD (md5Index t) 0
  { a := v.d, b := v.b + rotl f (md5Shift t), c := v.b, d := v.c }

/-- One block of MD5 (48_hmac_hash.md R146). -/
def md5Block (h : Md5Vars) (block : List Byte) : Md5Vars :=
  let x := blockWordsLE 32 4 block
  let v := (List.range 64).foldl (md5Round x) h
  { a := h.a + v.a, b := h.b + v.b, c := h.c + v.c, d := h.d + v.d }

/-- `Digest(MD5, m)` (48_hmac_hash.md R146). -/
def md5 (m : List Byte) : List Byte :=
  let h := (blocksOf 64 (padMessage false 64 8 m)).foldl md5Block md5Init
  leBytes 4 h.a ++ leBytes 4 h.b ++ leBytes 4 h.c ++ leBytes 4 h.d

/-! ### Digest and HMAC (R140, R141) -/

/-- `Digest(alg, m)` (48_hmac_hash.md R140, R143 to R146). -/
def digest : HashAlg → List Byte → List Byte
  | .sha1, m => sha1 m
  | .sha256, m => sha256 m
  | .sha512, m => sha512 m
  | .md5, m => md5 m

/-- `k0` of HMAC: a key longer than a block is replaced by its digest (48_hmac_hash.md R141). -/
def hmacKey (alg : HashAlg) (key : List Byte) : List Byte :=
  if alg.blockLength < key.length then digest alg key else key

/-- `k` of HMAC: `k0` padded on the right with zeros to a block (48_hmac_hash.md R141). -/
def hmacBlockKey (alg : HashAlg) (key : List Byte) : List Byte :=
  hmacKey alg key ++ List.replicate (alg.blockLength - (hmacKey alg key).length) 0

/-- Every byte of a sequence combined by exclusive or with one byte: `ipad` and `opad` of HMAC (48_hmac_hash.md R141). -/
def xorEach (b : Byte) (bs : List Byte) : List Byte := bs.map fun x => x ^^^ b

/-- `HMAC(alg, key, msg)` (48_hmac_hash.md R141). -/
def hmac (alg : HashAlg) (key msg : List Byte) : List Byte :=
  let k := hmacBlockKey alg key
  digest alg (xorEach 0x5C k ++ digest alg (xorEach 0x36 k ++ msg))

end Sys2Proof.Machine
end

