-- ==== Sys2Proof/Machine/Operands.lean ====
section
/-! DEFINITION. What the commands read: every operand is a fixed register (30_encoding.md R63). The two predicates of
41_hotp.md R85, the secret of 10_state.md R22, and the comparison of 41_hotp.md R86. -/

namespace Sys2Proof.Machine

/-- The configuration an engine command samples, present exactly when `ConfigValid` of 41_hotp.md R85 holds: every other
value of either field is invalid, like unset (10_state.md R11, R12). -/
def engineConfig (s : State) : Option (HashAlg × DigitCount) :=
  match digitCountOf s.digits.toNat, hashAlgOf s.alg.toNat with
  | some d, some a => some (a, d)
  | _, _ => none

/-- `SecretValid` (41_hotp.md R85). -/
def secretValid (s : State) : Bool := 1 ≤ s.secretLen.toNat && s.secretLen.toNat ≤ s.params.secretMax

/-- The secret of a command, `MemRead(0, SECRET_LEN)` (10_state.md R22, 20_memory.md R48). -/
def secretKey (s : State) : List Byte := Memory.readBytes s.secret 0 s.secretLen.toNat

/-- `LenOK`: `PASS_LEN` equals the number in `CFG.DIGITS`, whatever it is (41_hotp.md R86). -/
def lenOK (s : State) : Bool := s.passLen.toNat == s.digits.toNat

/-- Byte `i` of an eight-byte buffer, 0 beyond it. The rules only look at `i < 8`. -/
def bufferByte (v : Vector Byte 8) (i : Nat) : Byte := v.toList.getD i 0

/-- `PassEq(expect)`: every `PASS_IN[i]` with `i < CFG.DIGITS` equals `expect[i]` (41_hotp.md R86). Used only when the
configuration is valid, so that both sequences have length `CFG.DIGITS`. -/
def passEq (s : State) (expect : List Byte) : Bool :=
  (List.range s.digits.toNat).all fun i => bufferByte s.passIn i == expect.getD i 0

end Sys2Proof.Machine
end

