-- ==== Sys2Proof/Machine/Hotp.lean ====
section
/-! DEFINITION. The HOTP family (41_hotp.md): the shared functions `DT`, `Code`, `Format`, `Hotp` (R81 to R84), the tests
every engine command makes (R85), and the commands `HOTP_GEN` (R87) and `HOTP_VAL` (R88). -/

namespace Sys2Proof.Machine

/-- `offset` of `DT`: the low nibble of the final byte (41_hotp.md R81). -/
def truncOffset (hs : List Byte) : Nat := (hs.getD (hs.length - 1) 0 &&& 0x0F).toNat

/-- `DT(hs)`: the 31-bit integer `P`, in a 32-bit word, or `none` for `TruncFault` (41_hotp.md R81). -/
def dynamicTruncate (hs : List Byte) : Option Word :=
  let off := truncOffset hs
  if hs.length < off + 4 then none
  else
    some (((hs.getD off 0 &&& 0x7F).setWidth 32 <<< 24) |||
      ((hs.getD (off + 1) 0).setWidth 32 <<< 16) |||
      ((hs.getD (off + 2) 0).setWidth 32 <<< 8) |||
      (hs.getD (off + 3) 0).setWidth 32)

/-- `Code(P, d)` (41_hotp.md R82). -/
def codeOf (p : Word) (d : DigitCount) : Nat := p.toNat % 10 ^ d.toNat

/-- The byte of a decimal digit, `0x30 + k` (00_scope.md R7). -/
def asciiDigit (k : Nat) : Byte := BitVec.ofNat 8 (0x30 + k)

/-- `Format(code, d)`: the decimal numeral, most significant digit first, zero-padded to `d` characters (41_hotp.md R83). -/
def formatCode (code : Nat) (d : DigitCount) : List Byte :=
  (List.range d.toNat).map fun i => asciiDigit (code / 10 ^ (d.toNat - 1 - i) % 10)

/-- `Hotp(c)` with the algorithm, the digit count and the key given; `none` for `TruncFault` (41_hotp.md R84). -/
def hotp (alg : HashAlg) (d : DigitCount) (key : List Byte) (c : DWord) : Option (List Byte) :=
  match dynamicTruncate (hmac alg key (be64 c)) with
  | none => none
  | some p => some (formatCode (codeOf p d) d)

/-- The two tests every engine command makes, in their order: `ConfigValid`, then `SecretValid`; when both pass, `k`
continues with the algorithm, the digit count and the key (41_hotp.md R85, 60_exceptions.md R172). -/
def engineChecks (s : State) (k : HashAlg → DigitCount → List Byte → State) : State :=
  match engineConfig s with
  | none => raise .invalidConfig s
  | some (alg, d) => if secretValid s then k alg d (secretKey s) else raise .secretLength s

/-- The end of `HOTP_GEN`: the passcode, or `TruncationRange` (41_hotp.md R87). -/
def generateResult (s : State) : Option (List Byte) → State
  | none => raise .truncationRange s
  | some r => putPasscode r s

/-- The end of `HOTP_VAL`: the boolean, or `TruncationRange` (41_hotp.md R88). -/
def validateResult (s : State) : Option (List Byte) → State
  | none => raise .truncationRange s
  | some r => setMatch (passEq s r) s

/-- `HOTP_GEN` (41_hotp.md R87). -/
def execHotpGen (s : State) : Host.Outcome State Fault Refusal :=
  let s := clearResults s
  .next (engineChecks s fun alg d key => generateResult s (hotp alg d key s.counter))

/-- `HOTP_VAL` (41_hotp.md R88): the length is tested first. -/
def execHotpVal (s : State) : Host.Outcome State Fault Refusal :=
  let s := clearResults s
  if lenOK s then .next (engineChecks s fun alg d key => validateResult s (hotp alg d key s.counter))
  else .next (raise .invalidDigitsLength s)

end Sys2Proof.Machine
end

