-- ==== Sys2Proof/Machine/Totp.lean ====
section
/-! DEFINITION. The TOTP family (42_totp.md): `CounterFromTime` (R100), the candidate window (R102), its result as a
function of the set of candidates (R103), and the commands `TOTP_CTR` (R101) and `TOTP_VAL` (R104). -/

namespace Sys2Proof.Machine

/-- `CounterFromTime(t, p) = floor(t / p) mod 2^64` (42_totp.md R100). `Int.fdiv` rounds toward negative infinity. -/
def counterFromTime (t : Int) (p : Nat) : DWord := BitVec.ofInt 64 (t.fdiv p)

/-- `Candidates(c0, k)`: `c0, c0+1, c0-1, .., c0+k, c0-k`, each modulo 2^64 (42_totp.md R102). -/
def candidates (c0 : DWord) (k : Nat) : List DWord :=
  c0 :: (List.range k).flatMap fun j => [c0 + BitVec.ofNat 64 (j + 1), c0 - BitVec.ofNat 64 (j + 1)]

/-- The result of the window search: a match wins over a fault, a fault over "false" (42_totp.md R103). `h` is `Hotp` and
`eq` is `PassEq`. -/
def windowSearch (h : DWord → Option (List Byte)) (eq : List Byte → Bool) (cs : List DWord) : WindowResult :=
  if cs.any fun c => (h c).any eq then .matched
  else if cs.any fun c => (h c).isNone then .faulted
  else .unmatched

/-- The sequential realisation of the search that 42_totp.md R104 writes as a loop, with its variable `faulted`: it stops
at the first match. The command does not use it; that it gives the result of `windowSearch` is a claim. -/
def windowScan (h : DWord → Option (List Byte)) (eq : List Byte → Bool) (faulted : Bool) : List DWord → WindowResult
  | [] => if faulted then .faulted else .unmatched
  | c :: cs =>
    match h c with
    | none => windowScan h eq true cs
    | some r => if eq r then .matched else windowScan h eq faulted cs

/-- The end of `TOTP_VAL` (42_totp.md R103, R104). -/
def windowOutcome (s : State) : WindowResult → State
  | .matched => setMatch true s
  | .faulted => raise .truncationRange s
  | .unmatched => s

/-- The base counter of the TOTP commands, `CounterFromTime(sint64(TIME), PERIOD)` (42_totp.md R101, R104). -/
def baseCounter (s : State) : DWord := counterFromTime (sint64 s.time) s.period.toNat

/-- `TOTP_CTR` (42_totp.md R101). -/
def execTotpCtr (s : State) : Host.Outcome State Fault Refusal :=
  let s := clearResults s
  if s.period = 0 then .next (raise .invalidParameter s) else .next (setCounter (baseCounter s) s)

/-- `TOTP_VAL` (42_totp.md R104), its result defined on the set of candidates as R103 asks. -/
def execTotpVal (s : State) : Host.Outcome State Fault Refusal :=
  let s := clearResults s
  if s.period = 0 then .next (raise .invalidParameter s)
  else if lenOK s then
    .next (engineChecks s fun alg d key =>
      windowOutcome s (windowSearch (hotp alg d key) (passEq s) (candidates (baseCounter s) s.skew.toNat)))
  else .next (raise .invalidDigitsLength s)

end Sys2Proof.Machine
end

