-- ==== Sys2Proof/Machine/Dispatch.lean ====
section
/-! DEFINITION. The meaning of each command: one arm per row of the opcode map (30_encoding.md R61). -/

namespace Sys2Proof.Machine

def exec (i : Instr) (s : State) : Host.Outcome State Fault Refusal :=
  match i with
  | .hotpGen => Sys2Proof.Machine.execHotpGen s
  | .hotpVal => Sys2Proof.Machine.execHotpVal s
  | .totpCtr => Sys2Proof.Machine.execTotpCtr s
  | .totpVal => Sys2Proof.Machine.execTotpVal s
  | .cfgSetDigits => Sys2Proof.Machine.execCfgSetDigits s
  | .cfgSetAlg => Sys2Proof.Machine.execCfgSetAlg s
  | .cfgSetPeriod => Sys2Proof.Machine.execCfgSetPeriod s
  | .cfgSetSkew => Sys2Proof.Machine.execCfgSetSkew s
  | .cfgNew => Sys2Proof.Machine.execCfgNew s

end Sys2Proof.Machine
end

