-- ==== Sys2Proof/Machine/Port.lean ====
section
/-! DEFINITION. The host port in action: a write to `CMD` runs a command (20_memory.md R42), any other access reads or
stores (20_memory.md R43), the reset input resets (70_reset_and_hazards.md R201), and an idle block keeps its state
(60_exceptions.md R178). -/

namespace Sys2Proof.Machine

/-- A write of `w` to `CMD`: the command runs completely and atomically (20_memory.md R42), and a word that is no command
reports `IllegalCommand` (30_encoding.md R62). -/
def runCommand (w : Word) (s : State) : Host.Outcome State Fault Refusal :=
  match decode w with
  | .ok i => exec i s
  | .error _ => .next (illegalCommand s)

/-- `HostWrite` to a place (20_memory.md R43). -/
def writePlace (w : Word) (s : State) : Place → Host.Outcome State Fault Refusal
  | .cmd => runCommand w s
  | p => .next (storePlace w s p)

/-- `HostWrite(off, w)` (20_memory.md R43). -/
def hostWrite (ix : WordIndex) (w : Word) (s : State) : Host.Outcome State Fault Refusal :=
  writePlace w s (placeAt s.params (offsetOf ix))

/-- One event of the stream takes full effect (20_memory.md R50). -/
def serve (ev : HostEvent) (s : State) : Host.Outcome State Fault Refusal :=
  match ev with
  | .read ix => .next (pushReply (hostRead s ix) s)
  | .write ix w => hostWrite ix w s
  | .reset => .next (applyReset s)

/-- With nothing pending the block is idle and keeps all its state (60_exceptions.md R178, 70_reset_and_hazards.md R201).
DEDUCED (log entry 2). -/
def idle (s : State) : Host.Outcome State Fault Refusal := .next s

/-- The next event of the stream, taken from its front (20_memory.md R50). -/
def nextEvent (s : State) : Option (HostEvent × State) :=
  match s.pending with
  | [] => none
  | ev :: rest => some (ev, { s with pending := rest })

/-- The word index of `CMD`, offset `0x000` (20_memory.md R41). -/
def cmdIndex : WordIndex := 0

/-- The host access that starts the command `w`: `wr CMD, w` (30_encoding.md R65). -/
def commandAccess (w : Word) : HostEvent := .write cmdIndex w

/-- The stream with one more event in front of it. -/
def pushEvent (ev : HostEvent) (s : State) : State := { s with pending := ev :: s.pending }

end Sys2Proof.Machine
end

