-- ==== Sys2Proof/Machine/Step.lean ====
section
/-! DEFINITION. One step: one host access or reset takes full effect (20_memory.md R42, R50, 70_reset_and_hazards.md R208). -/

namespace Sys2Proof.Machine

/-- One step of the machine: the front event of the stream takes full effect, and an empty stream leaves the block idle. -/
def step (s : State) : Host.Outcome State Fault Refusal :=
  match nextEvent s with
  | none => idle s
  | some (ev, t) => serve ev t

/-- The state whose very next step runs the command of bits `w`: its `CMD` write stands in front of the stream. Where no
command word has those bits (`tableWord`), the state is unchanged. OTPE fetches nothing (00_scope.md R2), so this is how a
command comes to run (log entry 5). -/
def State.withFetchWord (s : State) (nbits w : Nat) : State :=
  match tableWord nbits w with
  | some v => pushEvent (commandAccess v) s
  | none => s

end Sys2Proof.Machine
end

