-- ==== Sys2Proof/Machine/Script.lean ====
section
/-! DEFINITION. Host scripts, the notation of 30_encoding.md R65 and R66: register names, the three line forms, and the
pseudo-commands as the accesses they expand to. They have no meaning of their own: the step gives each access its own. -/

namespace Sys2Proof.Machine.Script

/-- The word index of a byte offset of the window. -/
def ixOf (off : Nat) : WordIndex := BitVec.ofNat 10 (off / 4)

/-- `wr <REG>, <value>` with the register's offset (30_encoding.md R65). -/
def wr (off : Nat) (w : Word) : HostEvent := .write (ixOf off) w

/-- `rd <REG>` with the register's offset (30_encoding.md R65). -/
def rd (off : Nat) : HostEvent := .read (ixOf off)

/-- `cmd <MNEMONIC>` (30_encoding.md R65). -/
def cmd (i : Instr) : HostEvent := commandAccess (encode i)

/-- `w_k` of the pseudo-command `secret`: bytes `4k .. 4k+3`, missing bytes 0 (30_encoding.md R66). -/
def packWord (bs : List Byte) (k : Nat) : Word :=
  packBytes (bs.getD (4 * k) 0) (bs.getD (4 * k + 1) 0) (bs.getD (4 * k + 2) 0) (bs.getD (4 * k + 3) 0)

/-- `secret <b0 .. b(n-1)>` (30_encoding.md R66). -/
def secret (bs : List Byte) : List HostEvent :=
  ((List.range ((bs.length + 3) / 4)).map fun k => wr (secretBase + 4 * k) (packWord bs k)) ++
    [wr 0x04C (BitVec.ofNat 32 bs.length)]

/-- `counter <c>` (30_encoding.md R66). -/
def counter (c : DWord) : List HostEvent := [wr 0x024 (loWord c), wr 0x028 (hiWord c)]

/-- `time <t>`, with `T = t mod 2^64` (30_encoding.md R66). -/
def time (t : Int) : List HostEvent := [wr 0x02C (loWord (BitVec.ofInt 64 t)), wr 0x030 (hiWord (BitVec.ofInt 64 t))]

/-- `passcode "<s>"`, the characters as bytes: the first eight of them, and the length (30_encoding.md R66). -/
def passcode (cs : List Byte) : List HostEvent :=
  [wr 0x034 (packWord cs 0), wr 0x038 (packWord cs 1), wr 0x03C (BitVec.ofNat 32 cs.length)]

/-- `config <d>, <a>, <p>, <k>` (30_encoding.md R66). -/
def config (d a p k : Word) : List HostEvent := [wr 0x014 d, wr 0x018 a, wr 0x01C p, wr 0x020 k, cmd .cfgNew]

/-- `set_digits <d>` (30_encoding.md R66). -/
def setDigits (d : Word) : List HostEvent := [wr 0x014 d, cmd .cfgSetDigits]

/-- `set_alg <a>` (30_encoding.md R66). -/
def setAlg (a : Word) : List HostEvent := [wr 0x014 a, cmd .cfgSetAlg]

/-- `set_period <p>` (30_encoding.md R66). -/
def setPeriod (p : Word) : List HostEvent := [wr 0x014 p, cmd .cfgSetPeriod]

/-- `set_skew <k>` (30_encoding.md R66). -/
def setSkew (k : Word) : List HostEvent := [wr 0x014 k, cmd .cfgSetSkew]

/-- `totp_gen`: the passcode for the time step of `TIME` (30_encoding.md R66). -/
def totpGen : List HostEvent := [cmd .totpCtr, cmd .hotpGen]

end Sys2Proof.Machine.Script
end

