-- ==== Sys2Proof/Safety.lean ====
section
/-! DEFINITION. What a safe state is: the properties the rules say hold from reset on (10_state.md R11, R12, R14, R24 to
R26, 60_exceptions.md R170), with the canonical form of the secret buffer. Every step keeps them: that is a claim. -/

namespace Sys2Proof.Safety

open Sys2Proof.Machine

/-- The secret buffer is in canonical form and inside `SECRET_MAX` (10_state.md R22). -/
def secretInBounds (s : State) : Bool := Memory.wf s.secret && Memory.within s.params.secretMax s.secret

/-- The configuration holds values that a rule writes: `DIGITS` in {0, 6, 8} (10_state.md R11), `ALG` in {0, .., 4}
(R12), `PERIOD` not 0 (R14). -/
def configReachable (s : State) : Bool :=
  (s.digits == 0 || s.digits == 6 || s.digits == 8) && s.alg.toNat ≤ 4 && s.period != 0

/-- `ERR` is a code that a rule writes, never 1 and never 8 to 15 (60_exceptions.md R170), and `MATCH` implies no error
(10_state.md R26). -/
def statusReachable (s : State) : Bool := s.err != 1 && s.err.toNat ≤ 7 && (!s.matchFlag || s.err == 0)

/-- The character at place `i` of a passcode of length `n` in an eight-byte buffer: a decimal digit inside, 0 beyond. -/
def passcodeByte (n : Nat) (i : Nat) (b : Byte) : Bool :=
  if i < n then 0x30 ≤ b.toNat && b.toNat ≤ 0x39 else b == 0

/-- `PASS_OUT` holds no passcode and is all 0, or it holds one of the configured length with neither an error nor a match
reported (10_state.md R24, R25, 60_exceptions.md R173). -/
def resultReachable (s : State) : Bool :=
  (s.passOutLen == 0 && s.passOut == zeroBytes8) ||
    (s.err == 0 && !s.matchFlag && s.digits != 0 && s.passOutLen == s.digits &&
      (List.range 8).all fun i => passcodeByte s.passOutLen.toNat i (bufferByte s.passOut i))

/-- The invariant of the machine. -/
structure MachineInv (s : State) : Prop where
  secret : secretInBounds s = true
  config : configReachable s = true
  status : statusReachable s = true
  result : resultReachable s = true

/-- A state from which one step goes on, to a state of the invariant. -/
def SafeStep (s : State) : Prop := ∃ t, step s = .next t ∧ MachineInv t

/-! ### The words of the claims, written from the rules and not from the meanings -/

/-- `s` with the four result registers holding the error code `e`, the boolean `m` and no passcode: all that a command
may leave behind beside the one register its rule names (60_exceptions.md R173). -/
abbrev reported (s : State) (e : BitVec 4) (m : Bool) : State :=
  { s with err := e, matchFlag := m, passOut := zeroBytes8, passOutLen := 0 }

/-- `ConfigValid` (41_hotp.md R85). -/
abbrev configLegal (s : State) : Prop := (s.digits = 6 ∨ s.digits = 8) ∧ 1 ≤ s.alg.toNat ∧ s.alg.toNat ≤ 4

/-- `SecretValid` (41_hotp.md R85). -/
abbrev secretLegal (s : State) : Prop := 1 ≤ s.secretLen.toNat ∧ s.secretLen.toNat ≤ s.params.secretMax

/-- The configuration registers hold this algorithm and this digit count (10_state.md R11, R12). -/
abbrev hasConfig (s : State) (alg : HashAlg) (d : DigitCount) : Prop :=
  s.digits.toNat = d.toNat ∧ s.alg.toNat = alg.number

/-- The supplied passcode has the configured length (41_hotp.md R86, `LenOK`). -/
abbrev lengthMatches (s : State) : Prop := s.passLen.toNat = s.digits.toNat

/-- The supplied passcode is `r`, byte for byte over the configured digits (41_hotp.md R86, `PassEq`). -/
abbrev supplies (s : State) (r : List Byte) : Prop :=
  ∀ i : Fin 8, i.val < s.digits.toNat → s.passIn[i] = r.getD i.val 0

/-- `q` is `floor(t / p)`: the largest integer not above the quotient (00_scope.md R7). -/
abbrev isFloor (t : Int) (p : Nat) (q : Int) : Prop := q * p ≤ t ∧ t < (q + 1) * p

/-- `c` lies at most `k` steps from `c0`, modulo 2^64 (42_totp.md R102). -/
def inWindow (c0 : DWord) (k : Nat) (c : DWord) : Prop :=
  ∃ j : Int, -(k : Int) ≤ j ∧ j ≤ k ∧ c = c0 + BitVec.ofInt 64 j

/-- The decimal digit of `code` at place `i` of `d` characters, as its ASCII byte (41_hotp.md R83). -/
abbrev digitByte (code d i : Nat) : Byte := BitVec.ofNat 8 (0x30 + code / 10 ^ (d - 1 - i) % 10)

/-- The configuration registers are the same (10_state.md R16). -/
abbrev SameConfig (s t : State) : Prop :=
  t.digits = s.digits ∧ t.alg = s.alg ∧ t.period = s.period ∧ t.skew = s.skew

/-- `ARG0` to `ARG3`, `TIME`, the supplied passcode, the secret length and every byte of the secret are the same. -/
abbrev SameOperands (s t : State) : Prop :=
  t.arg0 = s.arg0 ∧ t.arg1 = s.arg1 ∧ t.arg2 = s.arg2 ∧ t.arg3 = s.arg3 ∧ t.time = s.time ∧
  t.passIn = s.passIn ∧ t.passLen = s.passLen ∧ t.secretLen = s.secretLen ∧
  ∀ a, Memory.read t.secret a = Memory.read s.secret a

/-- The result registers are the same. -/
abbrev SameResults (s t : State) : Prop :=
  t.err = s.err ∧ t.matchFlag = s.matchFlag ∧ t.passOut = s.passOut ∧ t.passOutLen = s.passOutLen

/-- The model's own fields are the same: the parameters, the stream and the replies. -/
abbrev SameOutside (s t : State) : Prop :=
  t.params = s.params ∧ t.pending = s.pending ∧ t.replies = s.replies

end Sys2Proof.Safety
end

