-- ==== Sys2Proof/Certificates/Slice0/Obligations.lean ====
section
/-! DEFINITION. The statements about OTPE for the provers. Each docstring names the rule it formalises. -/

open Sys2Proof Sys2Proof.Machine Sys2Proof.Safety

/-! ### Encoding and the step -/

/-- The nine words of 30_encoding.md R61 decode to their commands, and the illegal words of 95_test_vectors.md 2.8 (b) to
none. -/
def Obligations.CommandWordsDecode : Prop :=
  decode 0x00000001 = .ok .hotpGen ∧ decode 0x00000002 = .ok .hotpVal ∧ decode 0x00000003 = .ok .totpCtr ∧
  decode 0x00000004 = .ok .totpVal ∧ decode 0x00000010 = .ok .cfgSetDigits ∧ decode 0x00000011 = .ok .cfgSetAlg ∧
  decode 0x00000012 = .ok .cfgSetPeriod ∧ decode 0x00000013 = .ok .cfgSetSkew ∧ decode 0x00000014 = .ok .cfgNew ∧
  decode 0x00000000 = .error .unknownOpcode ∧ decode 0x00000005 = .error .unknownOpcode ∧
  decode 0x0000000F = .error .unknownOpcode ∧ decode 0x00000015 = .error .unknownOpcode ∧
  decode 0x00000101 = .error .upperBitsNotZero ∧ decode 0x80000001 = .error .upperBitsNotZero

/-- A word decodes to a command exactly when it is the word of the opcode map, the one the encoder gives, and to some
command exactly when bits [31:8] are zero and bits [7:0] are a listed opcode (30_encoding.md R60, R61). -/
def Obligations.DecodeIsTheOpcodeMap : Prop :=
  ∀ w : Word,
    (∀ i : Instr,
      (decode w = .ok i ↔
        w.toNat =
          (match i with
            | .hotpGen => 0x01
            | .hotpVal => 0x02
            | .totpCtr => 0x03
            | .totpVal => 0x04
            | .cfgSetDigits => 0x10
            | .cfgSetAlg => 0x11
            | .cfgSetPeriod => 0x12
            | .cfgSetSkew => 0x13
            | .cfgNew => 0x14)) ∧
      (decode w = .ok i ↔ w = encode i)) ∧
    ((∃ i : Instr, decode w = .ok i) ↔ WellFormed.commandWord w = true)

/-- When the next access writes to `CMD` a word that decodes to a command, the step is that command's meaning on the state
with the access taken from the stream (20_memory.md R42). The stream is the model's choice (log entry 1). -/
def Obligations.StepRunsTheCommandWritten : Prop :=
  ∀ (s : State) (w : Word) (rest : List HostEvent) (i : Instr),
    s.pending = .write 0 w :: rest → decode w = .ok i → step s = exec i { s with pending := rest }

/-- A word with a bit of [31:8] set, or whose low byte is no opcode, reports code 5, clears the results and changes nothing
else (30_encoding.md R62, 60_exceptions.md R170, R173). That the word arrives in a stream of State is the model's choice
(log entry 1). -/
def Obligations.IllegalWordOnlyReports : Prop :=
  ∀ (s : State) (w : Word) (rest : List HostEvent),
    s.pending = .write 0 w :: rest →
    (2 ^ 8 ≤ w.toNat ∨ w.toNat % 2 ^ 8 ∉ [0x01, 0x02, 0x03, 0x04, 0x10, 0x11, 0x12, 0x13, 0x14]) →
    step s = .next (reported { s with pending := rest } 5 false)

/-- A read takes its access from the stream, returns a word to the host and changes nothing else (20_memory.md R43).
The stream and the replies are the model's choice (log entry 1). -/
def Obligations.ReadChangesNoRegister : Prop :=
  ∀ (s : State) (ix : WordIndex) (rest : List HostEvent),
    s.pending = .read ix :: rest →
    step s = .next { s with pending := rest, replies := s.replies ++ [hostRead s ix] }

/-- What each offset of the window reads as: registers with their unnamed bits 0, and 0 for `CMD` and for every offset from
0x050 on, reserved or part of the secret (20_memory.md R41, R43, R44, 10_state.md R13, R26). -/
def Obligations.ReadsFollowTheAddressMap : Prop :=
  ∀ s : State,
    hostRead s 0 = 0 ∧
    (hostRead s 1).toNat = s.err.toNat + 2 ^ 4 * s.matchFlag.toNat ∧
    (hostRead s 2).toNat = s.digits.toNat + 2 ^ 8 * s.alg.toNat ∧
    hostRead s 3 = s.period ∧ hostRead s 4 = s.skew ∧
    hostRead s 5 = s.arg0 ∧ hostRead s 6 = s.arg1 ∧ hostRead s 7 = s.arg2 ∧ hostRead s 8 = s.arg3 ∧
    (hostRead s 9).toNat + 2 ^ 32 * (hostRead s 10).toNat = s.counter.toNat ∧
    (hostRead s 11).toNat + 2 ^ 32 * (hostRead s 12).toNat = s.time.toNat ∧
    (∀ k : Fin 4, (hostRead s 13).extractLsb' (8 * k.val) 8 = s.passIn[k.val]) ∧
    (∀ k : Fin 4, (hostRead s 14).extractLsb' (8 * k.val) 8 = s.passIn[4 + k.val]) ∧
    (hostRead s 15).toNat = s.passLen.toNat ∧
    (∀ k : Fin 4, (hostRead s 16).extractLsb' (8 * k.val) 8 = s.passOut[k.val]) ∧
    (∀ k : Fin 4, (hostRead s 17).extractLsb' (8 * k.val) 8 = s.passOut[4 + k.val]) ∧
    (hostRead s 18).toNat = s.passOutLen.toNat ∧ (hostRead s 19).toNat = s.secretLen.toNat ∧
    (∀ ix : WordIndex, 20 ≤ ix.toNat → hostRead s ix = 0)

/-- What a write to each offset but `CMD` and the secret window stores: the bits the register has, one half of a 64-bit
register, nothing for a read-only register or a reserved offset (20_memory.md R41, R43). -/
def Obligations.WritesFollowTheAddressMap : Prop :=
  ∀ (s : State) (w : Word),
    (∀ ix : WordIndex, ix ∈ [1, 2, 3, 4, 16, 17, 18] → hostWrite ix w s = .next s) ∧
    hostWrite 5 w s = .next { s with arg0 := w } ∧ hostWrite 6 w s = .next { s with arg1 := w } ∧
    hostWrite 7 w s = .next { s with arg2 := w } ∧ hostWrite 8 w s = .next { s with arg3 := w } ∧
    (∃ c : DWord, hostWrite 9 w s = .next { s with counter := c } ∧
      c.extractLsb' 0 32 = w ∧ c.extractLsb' 32 32 = s.counter.extractLsb' 32 32) ∧
    (∃ c : DWord, hostWrite 10 w s = .next { s with counter := c } ∧
      c.extractLsb' 32 32 = w ∧ c.extractLsb' 0 32 = s.counter.extractLsb' 0 32) ∧
    (∃ c : DWord, hostWrite 11 w s = .next { s with time := c } ∧
      c.extractLsb' 0 32 = w ∧ c.extractLsb' 32 32 = s.time.extractLsb' 32 32) ∧
    (∃ c : DWord, hostWrite 12 w s = .next { s with time := c } ∧
      c.extractLsb' 32 32 = w ∧ c.extractLsb' 0 32 = s.time.extractLsb' 0 32) ∧
    (∃ v : Vector Byte 8, hostWrite 13 w s = .next { s with passIn := v } ∧
      ∀ k : Fin 4, v[k.val] = w.extractLsb' (8 * k.val) 8 ∧ v[4 + k.val] = s.passIn[4 + k.val]) ∧
    (∃ v : Vector Byte 8, hostWrite 14 w s = .next { s with passIn := v } ∧
      ∀ k : Fin 4, v[4 + k.val] = w.extractLsb' (8 * k.val) 8 ∧ v[k.val] = s.passIn[k.val]) ∧
    hostWrite 15 w s = .next { s with passLen := w.extractLsb' 0 8 } ∧
    hostWrite 19 w s = .next { s with secretLen := w.extractLsb' 0 16 } ∧
    (∀ ix : WordIndex, 20 ≤ ix.toNat → ix.toNat < 64 → hostWrite ix w s = .next s) ∧
    (∀ ix : WordIndex, 0x100 + s.params.secretMax ≤ 4 * ix.toNat → hostWrite ix w s = .next s)

/-- A write of word `k` of the secret window stores its four bytes, byte `j` from bits `[8j+7 : 8j]`, and leaves every other
byte and every register as it was (20_memory.md R43, R44); the buffer stays in canonical form. -/
def Obligations.SecretWordWriteStoresItsBytes : Prop :=
  ∀ (s : State) (ix : WordIndex) (w : Word),
    64 ≤ ix.toNat → 4 * ix.toNat < 0x100 + s.params.secretMax → Memory.wf s.secret = true →
    ∃ m : Memory, hostWrite ix w s = .next { s with secret := m } ∧ Memory.wf m = true ∧
      (∀ j < 4, Memory.read m (4 * (ix.toNat - 64) + j) = w.extractLsb' (8 * j) 8) ∧
      (∀ a, (a < 4 * (ix.toNat - 64) ∨ 4 * (ix.toNat - 64) + 4 ≤ a) → Memory.read m a = Memory.read s.secret a)

/-- A write anywhere but `CMD` is idempotent (20_memory.md R47). -/
def Obligations.WritesAreIdempotent : Prop :=
  ∀ (s : State) (ix : WordIndex) (w : Word), ix ≠ 0 → Memory.wf s.secret = true →
    ∃ t : State, hostWrite ix w s = .next t ∧ hostWrite ix w t = .next t

/-- A write anywhere but `CMD` touches neither the results nor the configuration (20_memory.md R43, 10_state.md R16).
The stream is the model's choice (log entry 1). -/
def Obligations.OperandWritesKeepResultsAndConfig : Prop :=
  ∀ (s : State) (ix : WordIndex) (w : Word) (rest : List HostEvent), ix ≠ 0 → s.pending = .write ix w :: rest →
    ∃ t : State, step s = .next t ∧ SameResults s t ∧ SameConfig s t ∧
      t.params = s.params ∧ t.pending = rest ∧ t.replies = s.replies

/-- The secret has no read path (10_state.md R22): two machines that differ only in the secret buffer return the same words
and keep differing only there, whatever the access, unless it writes `CMD`. The stream, its replies and the reset event are the
model's choice (log entries 1 and 3). -/
def Obligations.SecretIsNotReadable : Prop :=
  ∀ (s : State) (m : Memory) (ev : HostEvent) (rest : List HostEvent),
    s.pending = ev :: rest → (∀ w, ev ≠ .write 0 w) →
    ∃ (t : State) (m' : Memory), step s = .next t ∧ step { s with secret := m } = .next { t with secret := m' }

/-- With nothing pending a step leaves the state as it is (60_exceptions.md R178, log entry 2), and a reset puts every item
of 10_state.md R10 to its reset value whatever it held (70_reset_and_hazards.md R200); that the parameters, the stream and
the replies stay is the model's choice (log entry 3). -/
def Obligations.IdleAndResetSteps : Prop :=
  ∀ s : State,
    (s.pending = [] → step s = .next s) ∧
    (∀ rest, s.pending = .reset :: rest →
      step s = .next { State.reset with params := s.params, pending := rest, replies := s.replies })

/-! ### Reset and the invariant -/

/-- The values after reset (70_reset_and_hazards.md R200, 10_state.md R30). -/
def Obligations.ResetValues : Prop :=
  State.reset.digits = 0 ∧ State.reset.alg = 0 ∧ State.reset.period = 30 ∧ State.reset.skew = 1 ∧
  State.reset.arg0 = 0 ∧ State.reset.arg1 = 0 ∧ State.reset.arg2 = 0 ∧ State.reset.arg3 = 0 ∧
  State.reset.counter = 0 ∧ State.reset.time = 0 ∧
  (∀ i : Fin 8, State.reset.passIn[i] = 0) ∧ State.reset.passLen = 0 ∧
  (∀ a, Memory.read State.reset.secret a = 0) ∧ State.reset.secretLen = 0 ∧
  (∀ i : Fin 8, State.reset.passOut[i] = 0) ∧ State.reset.passOutLen = 0 ∧
  State.reset.err = 0 ∧ State.reset.matchFlag = false

/-- The invariant holds right after reset. -/
def Obligations.ResetMeetsTheInvariant : Prop := MachineInv State.reset

/-- Every step goes on, and keeps the invariant: a canonical secret buffer inside its size, `DIGITS` in {0, 6, 8}, `ALG` at
most 4, `PERIOD` not 0, `ERR` never 1 or above 7, `MATCH` only without an error, and `PASS_OUT` all 0 or a passcode of the
configured length (10_state.md R11, R12, R14, R24 to R26, 60_exceptions.md R170, 70_reset_and_hazards.md R208). -/
def Obligations.StepKeepsTheInvariant : Prop := ∀ s : State, MachineInv s → SafeStep s

/-- Directly after reset, whatever `PASS_LEN` and `TIME` the host writes: `HOTP_GEN` reports code 2, the validations report
4 or 2, and `TOTP_CTR` works (70_reset_and_hazards.md R202). -/
def Obligations.CommandsDirectlyAfterReset : Prop :=
  ∀ (n : BitVec 8) (t : DWord),
    let s := { State.reset with passLen := n, time := t }
    exec .hotpGen s = .next (reported s 2 false) ∧
    exec .hotpVal s = .next (reported s (if n = 0 then 2 else 4) false) ∧
    exec .totpVal s = .next (reported s (if n = 0 then 2 else 4) false) ∧
    ∃ q : Int, isFloor t.toInt 30 q ∧ exec .totpCtr s = .next { reported s 0 false with counter := BitVec.ofInt 64 q }

/-! ### The HOTP family -/

/-- `HOTP_GEN` (41_hotp.md R87): its word, its success, and its three errors in the order tested. -/
def Obligations.HotpGenRule : Prop :=
  encode .hotpGen = 0x00000001 ∧
  ∀ s : State,
    (∀ (alg : HashAlg) (d : DigitCount) (p : Word), hasConfig s alg d → secretLegal s →
      dynamicTruncate (hmac alg (Memory.readBytes s.secret 0 s.secretLen.toNat) (be64 s.counter)) = some p →
      exec .hotpGen s = .next { s with
        err := 0
        matchFlag := false
        passOut := Vector.ofFn fun i : Fin 8 =>
          if i.val < d.toNat then digitByte (p.toNat % 10 ^ d.toNat) d.toNat i.val else 0
        passOutLen := s.digits }) ∧
    (¬ configLegal s → exec .hotpGen s = .next (reported s 2 false)) ∧
    (configLegal s → ¬ secretLegal s → exec .hotpGen s = .next (reported s 6 false)) ∧
    (∀ (alg : HashAlg) (d : DigitCount), hasConfig s alg d → secretLegal s →
      dynamicTruncate (hmac alg (Memory.readBytes s.secret 0 s.secretLen.toNat) (be64 s.counter)) = none →
      exec .hotpGen s = .next (reported s 7 false))

/-- `HOTP_VAL` (41_hotp.md R88): its word, its four errors in the order tested, and its boolean. -/
def Obligations.HotpValRule : Prop :=
  encode .hotpVal = 0x00000002 ∧
  ∀ s : State,
    (¬ lengthMatches s → exec .hotpVal s = .next (reported s 4 false)) ∧
    (lengthMatches s → ¬ configLegal s → exec .hotpVal s = .next (reported s 2 false)) ∧
    (lengthMatches s → configLegal s → ¬ secretLegal s → exec .hotpVal s = .next (reported s 6 false)) ∧
    (∀ (alg : HashAlg) (d : DigitCount), hasConfig s alg d → lengthMatches s → secretLegal s →
      (hotp alg d (secretKey s) s.counter = none → exec .hotpVal s = .next (reported s 7 false)) ∧
      (∀ r, hotp alg d (secretKey s) s.counter = some r →
        (supplies s r → exec .hotpVal s = .next (reported s 0 true)) ∧
        (¬ supplies s r → exec .hotpVal s = .next (reported s 0 false))))

/-- `DT` (41_hotp.md R81): the fault exactly when the window passes the end, the value of the window otherwise, below 2^31;
a 16-byte digest faults exactly for a low nibble of 13 or more, and a digest of 19 bytes or more never does. -/
def Obligations.DynamicTruncationRule : Prop :=
  ∀ hs : List Byte, hs ≠ [] →
    let off := (hs.getD (hs.length - 1) 0).toNat % 16
    (dynamicTruncate hs = none ↔ hs.length < off + 4) ∧
    (∀ p, dynamicTruncate hs = some p →
      p.toNat < 2 ^ 31 ∧
      p.toNat = (hs.getD off 0).toNat % 128 * 2 ^ 24 + (hs.getD (off + 1) 0).toNat * 2 ^ 16 +
        (hs.getD (off + 2) 0).toNat * 2 ^ 8 + (hs.getD (off + 3) 0).toNat) ∧
    (hs.length = 16 → (dynamicTruncate hs = none ↔ 13 ≤ off)) ∧
    (19 ≤ hs.length → dynamicTruncate hs ≠ none)

/-- `Format` (41_hotp.md R83): exactly `d` characters, each the ASCII byte of its digit, whose numeral is the code. -/
def Obligations.FormatIsTheDecimalNumeral : Prop :=
  ∀ (d : DigitCount) (code : Nat), code < 10 ^ d.toNat →
    (formatCode code d).length = d.toNat ∧
    (∀ i < d.toNat, (formatCode code d).getD i 0 = digitByte code d.toNat i) ∧
    (∀ b ∈ formatCode code d, 0x30 ≤ b.toNat ∧ b.toNat ≤ 0x39) ∧
    (formatCode code d).foldl (fun acc b => acc * 10 + (b.toNat - 0x30)) 0 = code

/-- The last six characters of the 8-digit passcode are the 6-digit passcode (41_hotp.md R82). -/
def Obligations.SixDigitsEndTheEightDigits : Prop :=
  ∀ (alg : HashAlg) (key : List Byte) (c : DWord) (r8 : List Byte),
    hotp alg .eight key c = some r8 → hotp alg .six key c = some (r8.drop 2)

/-- Round trip (41_hotp.md R89 item 1): a generated passcode, copied to `PASS_IN` with its length, validates at the same
counter. -/
def Obligations.GeneratedPasscodeValidates : Prop :=
  ∀ s t : State, exec .hotpGen s = .next t → t.err = 0 →
    let u := { t with passIn := t.passOut, passLen := t.passOutLen.setWidth 8 }
    exec .hotpVal u = .next (reported u 0 true)

/-- Determinism (41_hotp.md R89 item 4, 10_state.md R22): a command depends on the secret only through its first
`SECRET_LEN` bytes, so replacing the buffer by one that agrees on them changes nothing but the buffer. -/
def Obligations.OnlyTheSecretProperMatters : Prop :=
  ∀ (i : Instr) (s t : State) (m : Memory),
    (∀ a < s.secretLen.toNat, Memory.read m a = Memory.read s.secret a) →
    exec i s = .next t → exec i { s with secret := m } = .next { t with secret := m }

/-- Determinism (41_hotp.md R89 item 4): the results of `HOTP_GEN` are a function of `DIGITS`, `ALG`, the secret,
`SECRET_LEN` and `COUNTER` alone. -/
def Obligations.HotpGenReadsOnlyItsOperands : Prop :=
  ∀ s s' t t' : State,
    s'.digits = s.digits → s'.alg = s.alg → s'.counter = s.counter → s'.secretLen = s.secretLen →
    s'.params = s.params → (∀ a < s.secretLen.toNat, Memory.read s'.secret a = Memory.read s.secret a) →
    exec .hotpGen s = .next t → exec .hotpGen s' = .next t' → SameResults t t'

/-! ### The TOTP family -/

/-- `CounterFromTime` (42_totp.md R100): `floor(t / p) mod 2^64` for every integer `t` and every `p` from 1 on; for the
times and periods the registers can hold, the stored pattern reads, as a signed number, `floor(t / p)` itself. -/
def Obligations.CounterFromTimeIsTheFloor : Prop :=
  (∀ (t : Int) (p : Nat), 1 ≤ p →
    ∃ q : Int, isFloor t p q ∧ ((counterFromTime t p).toNat : Int) = q % 2 ^ 64) ∧
  ∀ (v : DWord) (p : Word), p ≠ 0 →
    isFloor (sint64 v) p.toNat (sint64 (counterFromTime (sint64 v) p.toNat))

/-- `TOTP_CTR` (42_totp.md R101): its word, its result in `COUNTER`, and its error when `PERIOD` is 0. -/
def Obligations.TotpCtrRule : Prop :=
  encode .totpCtr = 0x00000003 ∧
  ∀ s : State,
    (s.period = 0 → exec .totpCtr s = .next (reported s 3 false)) ∧
    (s.period ≠ 0 → ∃ c : DWord, isFloor (sint64 s.time) s.period.toNat (sint64 c) ∧
      exec .totpCtr s = .next { reported s 0 false with counter := c })

/-- The candidate window (42_totp.md R102): `2k+1` candidates, `c0` first, then `c0+1, c0-1, .., c0+k, c0-k`, pairwise
distinct, exactly the counters at most `k` steps away modulo 2^64. -/
def Obligations.CandidatesAreTheWindow : Prop :=
  ∀ (c0 : DWord) (k : Word),
    (candidates c0 k.toNat).length = 2 * k.toNat + 1 ∧
    (candidates c0 k.toNat).head? = some c0 ∧
    (∀ j < k.toNat,
      (candidates c0 k.toNat)[2 * j + 1]? = some (c0 + BitVec.ofNat 64 (j + 1)) ∧
      (candidates c0 k.toNat)[2 * j + 2]? = some (c0 - BitVec.ofNat 64 (j + 1))) ∧
    (candidates c0 k.toNat).Nodup ∧
    ∀ c, c ∈ candidates c0 k.toNat ↔ inWindow c0 k.toNat c

/-- The loop of 42_totp.md R104, run over the candidates in ANY order, gives the result that R103 defines on their set, the
one the model's `TOTP_VAL` takes (log entry 9). -/
def Obligations.WindowLoopInAnyOrder : Prop :=
  ∀ (h : DWord → Option (List Byte)) (eq : List Byte → Bool) (cs cs' : List DWord),
    cs.Perm cs' → windowScan h eq false cs' = windowSearch h eq cs

/-- `TOTP_VAL` (42_totp.md R104): its word, its errors in the order tested, and the three results of the window. -/
def Obligations.TotpValRule : Prop :=
  encode .totpVal = 0x00000004 ∧
  ∀ s : State,
    (s.period = 0 → exec .totpVal s = .next (reported s 3 false)) ∧
    (s.period ≠ 0 → ¬ lengthMatches s → exec .totpVal s = .next (reported s 4 false)) ∧
    (s.period ≠ 0 → lengthMatches s → ¬ configLegal s → exec .totpVal s = .next (reported s 2 false)) ∧
    (s.period ≠ 0 → lengthMatches s → configLegal s → ¬ secretLegal s →
      exec .totpVal s = .next (reported s 6 false)) ∧
    (∀ (alg : HashAlg) (d : DigitCount) (c0 : DWord),
      s.period ≠ 0 → lengthMatches s → hasConfig s alg d → secretLegal s →
      isFloor (sint64 s.time) s.period.toNat (sint64 c0) →
      ((∃ c r, inWindow c0 s.skew.toNat c ∧ hotp alg d (secretKey s) c = some r ∧ supplies s r) →
        exec .totpVal s = .next (reported s 0 true)) ∧
      ((∀ c r, inWindow c0 s.skew.toNat c → hotp alg d (secretKey s) c = some r → ¬ supplies s r) →
        ((∃ c, inWindow c0 s.skew.toNat c ∧ hotp alg d (secretKey s) c = none) →
          exec .totpVal s = .next (reported s 7 false)) ∧
        ((∀ c, inWindow c0 s.skew.toNat c → hotp alg d (secretKey s) c ≠ none) →
          exec .totpVal s = .next (reported s 0 false))))

/-- Window acceptance (42_totp.md R105): the passcode of any counter at most `SKEW` steps from `c0` validates. -/
def Obligations.TotpValAcceptsTheWholeWindow : Prop :=
  ∀ (s : State) (alg : HashAlg) (d : DigitCount) (j : Int) (r : List Byte),
    s.period ≠ 0 → hasConfig s alg d → secretLegal s → lengthMatches s →
    -(s.skew.toNat : Int) ≤ j → j ≤ s.skew.toNat →
    hotp alg d (secretKey s) (counterFromTime (sint64 s.time) s.period.toNat + BitVec.ofInt 64 j) = some r →
    supplies s r →
    exec .totpVal s = .next (reported s 0 true)

/-- All times of one step give the same result (42_totp.md R105). -/
def Obligations.OneTimeStepOneResult : Prop :=
  ∀ (s t : State) (v : DWord) (q : Int),
    isFloor (sint64 s.time) s.period.toNat q → isFloor (sint64 v) s.period.toNat q →
    exec .totpVal s = .next t → exec .totpVal { s with time := v } = .next { t with time := v }

/-- With `SKEW` 0 a `TOTP_VAL` reports what `HOTP_VAL` reports at the counter of `TIME` (42_totp.md R102). -/
def Obligations.SkewZeroIsPlainHotp : Prop :=
  ∀ s t : State, s.skew = 0 → s.period ≠ 0 →
    exec .hotpVal { s with counter := counterFromTime (sint64 s.time) s.period.toNat } = .next t →
    exec .totpVal s = .next { t with counter := s.counter }

/-! ### The configuration family -/

/-- `CFG_SET_DIGITS` (43_config.md R120). -/
def Obligations.CfgSetDigitsRule : Prop :=
  encode .cfgSetDigits = 0x00000010 ∧
  ∀ s : State,
    (s.arg0 = 6 → exec .cfgSetDigits s = .next { reported s 0 false with digits := 6 }) ∧
    (s.arg0 = 8 → exec .cfgSetDigits s = .next { reported s 0 false with digits := 8 }) ∧
    (s.arg0 ≠ 6 → s.arg0 ≠ 8 → exec .cfgSetDigits s = .next (reported s 3 false))

/-- `CFG_SET_ALG` (43_config.md R121). -/
def Obligations.CfgSetAlgRule : Prop :=
  encode .cfgSetAlg = 0x00000011 ∧
  ∀ s : State,
    (∀ a : BitVec 3, 1 ≤ a.toNat → a.toNat ≤ 4 → s.arg0.toNat = a.toNat →
      exec .cfgSetAlg s = .next { reported s 0 false with alg := a }) ∧
    (s.arg0.toNat < 1 ∨ 4 < s.arg0.toNat → exec .cfgSetAlg s = .next (reported s 3 false))

/-- `CFG_SET_PERIOD` (43_config.md R122). -/
def Obligations.CfgSetPeriodRule : Prop :=
  encode .cfgSetPeriod = 0x00000012 ∧
  ∀ s : State,
    (s.arg0 ≠ 0 → exec .cfgSetPeriod s = .next { reported s 0 false with period := s.arg0 }) ∧
    (s.arg0 = 0 → exec .cfgSetPeriod s = .next (reported s 3 false))

/-- `CFG_SET_SKEW` (43_config.md R123): it never fails. -/
def Obligations.CfgSetSkewRule : Prop :=
  encode .cfgSetSkew = 0x00000013 ∧
  ∀ s : State, exec .cfgSetSkew s = .next { reported s 0 false with skew := s.arg0 }

/-- `CFG_NEW` (43_config.md R124): all four registers or none, and the first bad argument decides the code. -/
def Obligations.CfgNewRule : Prop :=
  encode .cfgNew = 0x00000014 ∧
  ∀ s : State,
    (s.arg0 ≠ 6 → s.arg0 ≠ 8 → exec .cfgNew s = .next (reported s 2 false)) ∧
    ((s.arg0 = 6 ∨ s.arg0 = 8) → (s.arg1.toNat < 1 ∨ 4 < s.arg1.toNat) →
      exec .cfgNew s = .next (reported s 2 false)) ∧
    ((s.arg0 = 6 ∨ s.arg0 = 8) → 1 ≤ s.arg1.toNat → s.arg1.toNat ≤ 4 → s.arg2 = 0 →
      exec .cfgNew s = .next (reported s 3 false)) ∧
    (∀ (d : BitVec 4) (a : BitVec 3), (d = 6 ∨ d = 8) → s.arg0.toNat = d.toNat →
      1 ≤ a.toNat → a.toNat ≤ 4 → s.arg1.toNat = a.toNat → s.arg2 ≠ 0 →
      exec .cfgNew s =
        .next { reported s 0 false with digits := d, alg := a, period := s.arg2, skew := s.arg3 })

/-! ### Rules over all commands -/

/-- Every command completes in every state (70_reset_and_hazards.md R208), and one that raises an error changes nothing
except the result registers, of which only `ERR` is not cleared (60_exceptions.md R173). -/
def Obligations.FailedCommandChangesOnlyResults : Prop :=
  ∀ (i : Instr) (s : State), ∃ t : State, exec i s = .next t ∧ (t.err ≠ 0 → t = reported s t.err false)

/-- No command depends on the results of an earlier one (10_state.md R26, 60_exceptions.md R174). -/
def Obligations.EarlierResultsDoNotMatter : Prop :=
  ∀ (i : Instr) (s : State) (e : BitVec 4) (m : Bool) (v : Vector Byte 8) (n : BitVec 4),
    exec i { s with err := e, matchFlag := m, passOut := v, passOutLen := n } = exec i s

/-- Which command can end with which code, and with a match (60_exceptions.md R171, 10_state.md R26). -/
def Obligations.CodesOfEachCommand : Prop :=
  ∀ (i : Instr) (s t : State), exec i s = .next t →
    t.err.toNat ∈
      (match i with
        | .hotpGen => [0, 2, 6, 7]
        | .hotpVal => [0, 2, 4, 6, 7]
        | .totpCtr => [0, 3]
        | .totpVal => [0, 2, 3, 4, 6, 7]
        | .cfgSetDigits => [0, 3]
        | .cfgSetAlg => [0, 3]
        | .cfgSetPeriod => [0, 3]
        | .cfgSetSkew => [0]
        | .cfgNew => [0, 2, 3]) ∧
    (t.matchFlag = true → t.err = 0 ∧ (i = .hotpVal ∨ i = .totpVal)) ∧
    (t.passOutLen ≠ 0 → t.err = 0 ∧ i = .hotpGen)

/-- Frame of the engine commands (10_state.md R10): no configuration register, operand or byte of the secret changes,
except that `TOTP_CTR` writes `COUNTER`; a validation and `TOTP_CTR` leave no passcode. -/
def Obligations.EngineCommandsFrame : Prop :=
  ∀ (i : Instr) (s t : State), i ∈ [Instr.hotpGen, .hotpVal, .totpCtr, .totpVal] → exec i s = .next t →
    SameConfig s t ∧ SameOperands s t ∧ SameOutside s t ∧
    (i ≠ .totpCtr → t.counter = s.counter) ∧
    (i ≠ .hotpGen → t.passOut = zeroBytes8 ∧ t.passOutLen = 0)

/-- Frame of the configuration commands (43_config.md R125): no operand, no byte of the secret and not `COUNTER` changes,
a setter changes its own register only, a command that fails changes none, and no passcode or match is left. -/
def Obligations.ConfigCommandsFrame : Prop :=
  ∀ (i : Instr) (s t : State),
    i ∈ [Instr.cfgSetDigits, .cfgSetAlg, .cfgSetPeriod, .cfgSetSkew, .cfgNew] → exec i s = .next t →
    SameOperands s t ∧ SameOutside s t ∧ t.counter = s.counter ∧
    (t.err ≠ 0 → SameConfig s t) ∧
    (i ∉ [Instr.cfgSetDigits, .cfgNew] → t.digits = s.digits) ∧
    (i ∉ [Instr.cfgSetAlg, .cfgNew] → t.alg = s.alg) ∧
    (i ∉ [Instr.cfgSetPeriod, .cfgNew] → t.period = s.period) ∧
    (i ∉ [Instr.cfgSetSkew, .cfgNew] → t.skew = s.skew) ∧
    t.passOut = zeroBytes8 ∧ t.passOutLen = 0 ∧ t.matchFlag = false

/-! ### HMAC and the hash functions -/

/-- Digest and HMAC lengths (48_hmac_hash.md R140, R141). -/
def Obligations.DigestAndHmacLengths : Prop :=
  (∀ m, (digest .sha1 m).length = 20) ∧ (∀ m, (digest .sha256 m).length = 32) ∧
  (∀ m, (digest .sha512 m).length = 64) ∧ (∀ m, (digest .md5 m).length = 16) ∧
  ∀ (alg : HashAlg) (key msg : List Byte), (hmac alg key msg).length = alg.digestLength

/-- The key rule of HMAC (48_hmac_hash.md R141): a key longer than the block `B` is replaced by its digest, any other is
padded on the right with zeros to `B` bytes, and a key of exactly `B` bytes is used as it is; the result has the length of
a digest. -/
def Obligations.HmacKeyRule : Prop :=
  ∀ (alg : HashAlg) (key msg : List Byte),
    let B : Nat := if alg = .sha512 then 128 else 64
    (hmac alg key msg).length = alg.digestLength ∧
    (B < key.length → hmac alg key msg = hmac alg (digest alg key) msg) ∧
    (∀ n, key.length + n ≤ B → hmac alg (key ++ List.replicate n 0) msg = hmac alg key msg) ∧
    (key.length = B →
      hmac alg key msg =
        digest alg (key.map (· ^^^ 0x5C) ++ digest alg (key.map (· ^^^ 0x36) ++ msg)))

/-- Padding (48_hmac_hash.md R142): the message, the byte 0x80, fewer than `blk` zero bytes, and the bit length, to a whole
number of blocks. -/
def Obligations.PaddingFillsWholeBlocks : Prop :=
  ∀ (bigEndian : Bool) (blk lenBytes : Nat) (m : List Byte), 0 < blk →
    ∃ z : Nat, z < blk ∧
      padMessage bigEndian blk lenBytes m =
        m ++ [0x80] ++ List.replicate z 0 ++ lengthBytes bigEndian lenBytes m.length ∧
      blk ∣ (padMessage bigEndian blk lenBytes m).length ∧
      (lengthBytes bigEndian lenBytes m.length).length = lenBytes

/-! ### Host scripts -/

/-- The pseudo-command `secret` (30_encoding.md R66) loads the secret: after its accesses, a command's key is the given
bytes, and nothing but `SECRET_LEN` and the words of the buffer that it writes has changed. The stream is the model's
choice (log entry 1), and longer sequences are no secret (log entry 12). -/
def Obligations.SecretScriptLoadsTheKey : Prop :=
  ∀ (s : State) (bs : List Byte), bs.length ≤ s.params.secretMax → s.pending = Script.secret bs →
    Memory.wf s.secret = true →
    ∃ t : State, Sys2Proof.core.run (Script.secret bs).length s = .next t ∧
      secretKey t = bs ∧ Memory.wf t.secret = true ∧
      (∀ a, 4 * ((bs.length + 3) / 4) ≤ a → Memory.read t.secret a = Memory.read s.secret a) ∧
      t = { s with secret := t.secret, secretLen := BitVec.ofNat 16 bs.length, pending := [] }

/-- The pseudo-commands `counter`, `time` and `passcode` (30_encoding.md R66) set their registers and nothing else.
The stream is the model's choice (log entry 1). -/
def Obligations.OperandScriptsSetTheirRegisters : Prop :=
  ∀ (s : State),
    (∀ c : DWord, s.pending = Script.counter c →
      Sys2Proof.core.run 2 s = .next { s with counter := c, pending := [] }) ∧
    (∀ t : Int, s.pending = Script.time t →
      Sys2Proof.core.run 2 s = .next { s with time := BitVec.ofInt 64 t, pending := [] }) ∧
    (∀ cs : List Byte, s.pending = Script.passcode cs →
      Sys2Proof.core.run 3 s = .next { s with
        passIn := Vector.ofFn fun i : Fin 8 => cs.getD i.val 0
        passLen := BitVec.ofNat 8 cs.length
        pending := [] })

/-- The pseudo-command `config` with legal arguments (30_encoding.md R66) leaves the configuration given, no error, and the
arguments in `ARG0` to `ARG3`. The stream is the model's choice (log entry 1). -/
def Obligations.ConfigScriptConfigures : Prop :=
  ∀ (s : State) (d : DigitCount) (alg : HashAlg) (p k : Word), p ≠ 0 →
    s.pending = Script.config (BitVec.ofNat 32 d.toNat) (BitVec.ofNat 32 alg.number) p k →
    ∃ t : State, Sys2Proof.core.run 5 s = .next t ∧ hasConfig t alg d ∧
      t = { reported s 0 false with
        digits := t.digits, alg := t.alg, period := p, skew := k, pending := []
        arg0 := BitVec.ofNat 32 d.toNat, arg1 := BitVec.ofNat 32 alg.number, arg2 := p, arg3 := k }

/-- The pseudo-commands `set_digits`, `set_alg`, `set_period` and `set_skew` (30_encoding.md R66): each is its setter with
the argument in `ARG0`. The stream is the model's choice (log entry 1). -/
def Obligations.SetterScriptsRunTheirSetters : Prop :=
  ∀ (s : State) (x : Word),
    (s.pending = Script.setDigits x →
      Sys2Proof.core.run 2 s = exec .cfgSetDigits { s with arg0 := x, pending := [] }) ∧
    (s.pending = Script.setAlg x → Sys2Proof.core.run 2 s = exec .cfgSetAlg { s with arg0 := x, pending := [] }) ∧
    (s.pending = Script.setPeriod x →
      Sys2Proof.core.run 2 s = exec .cfgSetPeriod { s with arg0 := x, pending := [] }) ∧
    (s.pending = Script.setSkew x → Sys2Proof.core.run 2 s = exec .cfgSetSkew { s with arg0 := x, pending := [] })

/-- The pseudo-command `totp_gen` (30_encoding.md R66): the results are those of `HOTP_GEN` at the counter of `TIME`, which
stands in `COUNTER` afterwards. The stream is the model's choice (log entry 1). -/
def Obligations.TotpGenScriptIsHotpAtTheTimeCounter : Prop :=
  ∀ (s : State) (c : DWord), s.period ≠ 0 → s.pending = Script.totpGen →
    isFloor (sint64 s.time) s.period.toNat (sint64 c) →
    Sys2Proof.core.run 2 s = exec .hotpGen { s with counter := c, pending := [] }
end

