-- ==== Sys2Proof/Laws/Bytes.lean ====
section
/-! SUPPORT. Lengths and bytes: the byte sequences of a value, of a padded message and of HMAC's padded key. -/

namespace Sys2Proof.Machine

@[simp] theorem beBytes_length {n : Nat} (k : Nat) (x : BitVec n) : (beBytes k x).length = k := by simp [beBytes]

@[simp] theorem leBytes_length {n : Nat} (k : Nat) (x : BitVec n) : (leBytes k x).length = k := by simp [leBytes]

@[simp] theorem be64_length (c : DWord) : (be64 c).length = 8 := beBytes_length 8 c

@[simp] theorem xorEach_length (b : Byte) (bs : List Byte) : (xorEach b bs).length = bs.length := by simp [xorEach]

theorem lengthBytes_length (bigEndian : Bool) (lenBytes n : Nat) :
    (lengthBytes bigEndian lenBytes n).length = lenBytes := by
  cases bigEndian <;> simp [lengthBytes]

@[simp] theorem Sha2Vars.words_length {w : Nat} (v : Sha2Vars w) : v.words.length = 8 := rfl

@[simp] theorem sha2Bytes_length {w : Nat} (k : Nat) (h : Sha2Vars w) : (sha2Bytes k h).length = 8 * k := by
  simp [sha2Bytes, Sha2Vars.words]
  omega

@[simp] theorem tableWords_length (w k : Nat) (lines : List Nat) : (tableWords w k lines).length = lines.length * k := by
  simp [tableWords]

theorem hmac_eq (alg : HashAlg) (key msg : List Byte) :
    hmac alg key msg =
      digest alg (xorEach 0x5C (hmacBlockKey alg key) ++ digest alg (xorEach 0x36 (hmacBlockKey alg key) ++ msg)) := rfl

/-! ### Lanes and halves (20_memory.md R44) -/

/-- Byte `k` of four packed bytes is the `k`-th of them. -/
theorem byteOf_packBytes (b : Fin 4 → Byte) (k : Fin 4) : byteOf (packBytes (b 0) (b 1) (b 2) (b 3)) k.val = b k := by
  unfold byteOf packBytes
  match k with
  | 0 => ext i hi; simp [hi]; grind
  | 1 => ext i hi; simp [hi]; grind
  | 2 => ext i hi; simp [hi]; grind
  | 3 => ext i hi; simp [hi]; grind

@[simp] theorem loWord_joinWords (hi lo : Word) : loWord (joinWords hi lo) = lo := by
  unfold loWord joinWords; ext i h; simp [h]; grind

@[simp] theorem hiWord_joinWords (hi lo : Word) : hiWord (joinWords hi lo) = hi := by
  unfold hiWord joinWords; ext i h; simp [h]; grind

@[simp] theorem joinWords_hiWord_loWord (x : DWord) : joinWords (hiWord x) (loWord x) = x := by
  unfold hiWord loWord joinWords; ext i h; simp [h]; grind

@[simp] theorem withLaneWord_getElem (v : Vector Byte 8) (w : Fin 2) (x : Word) (i : Nat) (h : i < 8) :
    (withLaneWord v w x)[i] = if i / 4 = w.val then byteOf x (i % 4) else v[i] := by
  simp [withLaneWord]

end Sys2Proof.Machine
end

