-- ==== Sys2Proof/Laws/Memory.lean ====
section
/-! SUPPORT. The secret buffer: what a read sees after a write, and that every operation keeps the canonical form. -/

namespace Sys2Proof.Machine

@[simp] theorem Memory.read_nil (a : Nat) : Memory.read [] a = 0 := rfl

theorem Memory.read_cons (k : Nat) (v : Byte) (m : Memory) (a : Nat) :
    Memory.read ((k, v) :: m) a = if k = a then v else Memory.read m a := rfl

/-- A weaker lower bound is still one. -/
theorem Memory.wfFrom_mono {lo lo' : Nat} (h : lo' ≤ lo) :
    ∀ m : Memory, Memory.wfFrom lo m = true → Memory.wfFrom lo' m = true
  | [], _ => rfl
  | (k, v) :: m, hm => by
    simp only [Memory.wfFrom, Bool.and_eq_true, decide_eq_true_eq] at hm ⊢
    exact ⟨⟨by omega, hm.1.2⟩, hm.2⟩

/-- Below the lower bound of a canonical buffer nothing is listed. -/
theorem Memory.read_below :
    ∀ (m : Memory) (lo a : Nat), Memory.wfFrom lo m = true → a < lo → Memory.read m a = 0
  | [], _, _, _, _ => rfl
  | (k, v) :: m, lo, a, hm, ha => by
    simp only [Memory.wfFrom, Bool.and_eq_true, decide_eq_true_eq] at hm
    rw [Memory.read_cons, if_neg (by omega)]
    exact Memory.read_below m (k + 1) a hm.2 (by omega)

/-- The canonical form survives a write, and no index below the bound appears. -/
theorem Memory.wfFrom_write :
    ∀ (m : Memory) (lo a : Nat) (b : Byte), Memory.wfFrom lo m = true → lo ≤ a →
      Memory.wfFrom lo (Memory.write m a b) = true
  | [], lo, a, b, _, ha => by
    by_cases hb : b = unlistedByte <;> simp [Memory.write, Memory.wfFrom, hb, ha]
  | (k, v) :: m, lo, a, b, hm, ha => by
    have hm' := hm
    simp only [Memory.wfFrom, Bool.and_eq_true, decide_eq_true_eq, bne_iff_ne] at hm'
    obtain ⟨⟨hk, hv⟩, hrest⟩ := hm'
    simp only [Memory.write]
    split
    · split
      · exact hm
      · rename_i hlt hb
        simp [Memory.wfFrom, ha, hb, hv, hrest]; omega
    · split
      · rename_i hlt heq
        subst heq
        split
        · exact Memory.wfFrom_mono (by omega) m hrest
        · rename_i hb
          simp [Memory.wfFrom, ha, hb, hrest]
      · rename_i hlt heq
        simp only [Memory.wfFrom, Bool.and_eq_true, decide_eq_true_eq, bne_iff_ne]
        exact ⟨⟨hk, hv⟩, Memory.wfFrom_write m (k + 1) a b hrest (by omega)⟩

theorem Memory.wf_write (m : Memory) (a : Nat) (b : Byte) (h : Memory.wf m = true) :
    Memory.wf (Memory.write m a b) = true := Memory.wfFrom_write m 0 a b h (Nat.zero_le a)

/-- Read after write, in a canonical buffer. -/
theorem Memory.read_write_from :
    ∀ (m : Memory) (lo a : Nat) (b : Byte) (x : Nat), Memory.wfFrom lo m = true →
      Memory.read (Memory.write m a b) x = if x = a then b else Memory.read m x
  | [], lo, a, b, x, _ => by
    by_cases hb : b = unlistedByte
    · by_cases hx : x = a <;> simp [Memory.write, hb, hx, unlistedByte]
    · by_cases hx : x = a
      · simp [Memory.write, hb, hx, Memory.read_cons]
      · simp [Memory.write, hb, hx, Memory.read_cons, Ne.symm hx]
  | (k, v) :: m, lo, a, b, x, hm => by
    have hm' := hm
    simp only [Memory.wfFrom, Bool.and_eq_true, decide_eq_true_eq, bne_iff_ne] at hm'
    obtain ⟨⟨hk, hv⟩, hrest⟩ := hm'
    simp only [Memory.write]
    split
    · rename_i hlt
      split
      · rename_i hb
        by_cases hx : x = a
        · subst hx
          rw [if_pos rfl, Memory.read_cons, if_neg (by omega), Memory.read_below m (k + 1) x hrest (by omega), hb]
          rfl
        · rw [if_neg hx]
      · by_cases hx : x = a
        · subst hx; simp [Memory.read_cons]
        · rw [if_neg hx, Memory.read_cons, if_neg (Ne.symm hx)]
    · split
      · rename_i hlt heq
        subst heq
        split
        · rename_i hb
          by_cases hx : x = a
          · subst hx
            rw [if_pos rfl, Memory.read_below m (x + 1) x hrest (by omega), hb]
            rfl
          · rw [if_neg hx, Memory.read_cons, if_neg (Ne.symm hx)]
        · by_cases hx : x = a
          · subst hx; simp [Memory.read_cons]
          · rw [if_neg hx, Memory.read_cons, Memory.read_cons, if_neg (Ne.symm hx), if_neg (Ne.symm hx)]
      · rename_i hlt heq
        rw [Memory.read_cons, Memory.read_cons, Memory.read_write_from m (k + 1) a b x hrest]
        by_cases hkx : k = x
        · simp [hkx, show x ≠ a by omega]
        · simp [hkx]

theorem Memory.read_write (m : Memory) (a : Nat) (b : Byte) (x : Nat) (h : Memory.wf m = true) :
    Memory.read (Memory.write m a b) x = if x = a then b else Memory.read m x :=
  Memory.read_write_from m 0 a b x h

/-- Writing inside a limit keeps every listed index inside it. -/
theorem Memory.within_write (limit a : Nat) (b : Byte) (ha : a < limit) :
    ∀ m : Memory, Memory.within limit m = true → Memory.within limit (Memory.write m a b) = true
  | [], _ => by by_cases hb : b = unlistedByte <;> simp [Memory.write, Memory.within, hb, ha]
  | (k, v) :: m, hm => by
    simp only [Memory.within, List.all_cons, Bool.and_eq_true, decide_eq_true_eq] at hm
    have ih := Memory.within_write limit a b ha m hm.2
    simp only [Memory.within] at ih
    simp only [Memory.write]
    split
    · split <;> simp [Memory.within, hm.1, hm.2, ha]
    · split
      · split <;> simp [Memory.within, ha] <;> simpa using hm.2
      · simp only [Memory.within, List.all_cons, Bool.and_eq_true, decide_eq_true_eq]
        exact ⟨hm.1, ih⟩

/-! ### Word writes and the key -/

theorem Memory.wf_writeWord (m : Memory) (k : Nat) (w : Word) (h : Memory.wf m = true) :
    Memory.wf (Memory.writeWord m k w) = true :=
  Memory.wf_write _ _ _ (Memory.wf_write _ _ _ (Memory.wf_write _ _ _ (Memory.wf_write _ _ _ h)))

theorem Memory.within_writeWord (limit : Nat) (m : Memory) (k : Nat) (w : Word) (hk : 4 * k + 3 < limit)
    (h : Memory.within limit m = true) : Memory.within limit (Memory.writeWord m k w) = true :=
  Memory.within_write _ _ _ (by omega) _ (Memory.within_write _ _ _ (by omega) _
    (Memory.within_write _ _ _ (by omega) _ (Memory.within_write _ _ _ (by omega) _ h)))

/-- What a word write does to every byte of the buffer (20_memory.md R43). -/
theorem Memory.read_writeWord (m : Memory) (k : Nat) (w : Word) (x : Nat) (h : Memory.wf m = true) :
    Memory.read (Memory.writeWord m k w) x =
      if 4 * k ≤ x ∧ x < 4 * k + 4 then byteOf w (x - 4 * k) else Memory.read m x := by
  have h1 := Memory.wf_write m (4 * k) (byteOf w 0) h
  have h2 := Memory.wf_write _ (4 * k + 1) (byteOf w 1) h1
  have h3 := Memory.wf_write _ (4 * k + 2) (byteOf w 2) h2
  rw [Memory.writeWord, Memory.read_write _ _ _ _ h3, Memory.read_write _ _ _ _ h2, Memory.read_write _ _ _ _ h1,
    Memory.read_write _ _ _ _ h]
  by_cases hx : 4 * k ≤ x ∧ x < 4 * k + 4
  · rw [if_pos hx]
    obtain ⟨j, rfl⟩ := Nat.exists_eq_add_of_le hx.1
    have hj : j = 0 ∨ j = 1 ∨ j = 2 ∨ j = 3 := by omega
    rcases hj with rfl | rfl | rfl | rfl <;> simp
  · rw [if_neg hx, if_neg (by omega), if_neg (by omega), if_neg (by omega), if_neg (by omega)]

@[simp] theorem Memory.readBytes_length (m : Memory) (a n : Nat) : (Memory.readBytes m a n).length = n := by
  simp [Memory.readBytes]

/-- A key depends on the bytes below its length alone. -/
theorem Memory.readBytes_congr (m m' : Memory) (n : Nat) (h : ∀ a < n, Memory.read m' a = Memory.read m a) :
    Memory.readBytes m' 0 n = Memory.readBytes m 0 n := by
  simp only [Memory.readBytes]
  exact List.map_congr_left fun i hi => by simpa using h i (List.mem_range.mp hi)

end Sys2Proof.Machine
end

