-- ==== Sys2Proof/Laws/State.lean ====
section
/-! SUPPORT. One lemma per field for each named update of State, so that no proof unfolds a record update. -/

namespace Sys2Proof.Machine

/-! ### `clearResults` -/

@[simp] theorem clearResults_digits (s : State) : (clearResults s).digits = s.digits := rfl
@[simp] theorem clearResults_alg (s : State) : (clearResults s).alg = s.alg := rfl
@[simp] theorem clearResults_period (s : State) : (clearResults s).period = s.period := rfl
@[simp] theorem clearResults_skew (s : State) : (clearResults s).skew = s.skew := rfl
@[simp] theorem clearResults_arg0 (s : State) : (clearResults s).arg0 = s.arg0 := rfl
@[simp] theorem clearResults_arg1 (s : State) : (clearResults s).arg1 = s.arg1 := rfl
@[simp] theorem clearResults_arg2 (s : State) : (clearResults s).arg2 = s.arg2 := rfl
@[simp] theorem clearResults_arg3 (s : State) : (clearResults s).arg3 = s.arg3 := rfl
@[simp] theorem clearResults_counter (s : State) : (clearResults s).counter = s.counter := rfl
@[simp] theorem clearResults_time (s : State) : (clearResults s).time = s.time := rfl
@[simp] theorem clearResults_passIn (s : State) : (clearResults s).passIn = s.passIn := rfl
@[simp] theorem clearResults_passLen (s : State) : (clearResults s).passLen = s.passLen := rfl
@[simp] theorem clearResults_secret (s : State) : (clearResults s).secret = s.secret := rfl
@[simp] theorem clearResults_secretLen (s : State) : (clearResults s).secretLen = s.secretLen := rfl
@[simp] theorem clearResults_passOut (s : State) : (clearResults s).passOut = zeroBytes8 := rfl
@[simp] theorem clearResults_passOutLen (s : State) : (clearResults s).passOutLen = 0 := rfl
@[simp] theorem clearResults_err (s : State) : (clearResults s).err = 0 := rfl
@[simp] theorem clearResults_matchFlag (s : State) : (clearResults s).matchFlag = false := rfl
@[simp] theorem clearResults_params (s : State) : (clearResults s).params = s.params := rfl
@[simp] theorem clearResults_pending (s : State) : (clearResults s).pending = s.pending := rfl
@[simp] theorem clearResults_replies (s : State) : (clearResults s).replies = s.replies := rfl

/-! ### `raise` -/

@[simp] theorem raise_digits (e : ErrorKind) (s : State) : (raise e s).digits = s.digits := rfl
@[simp] theorem raise_alg (e : ErrorKind) (s : State) : (raise e s).alg = s.alg := rfl
@[simp] theorem raise_period (e : ErrorKind) (s : State) : (raise e s).period = s.period := rfl
@[simp] theorem raise_skew (e : ErrorKind) (s : State) : (raise e s).skew = s.skew := rfl
@[simp] theorem raise_arg0 (e : ErrorKind) (s : State) : (raise e s).arg0 = s.arg0 := rfl
@[simp] theorem raise_arg1 (e : ErrorKind) (s : State) : (raise e s).arg1 = s.arg1 := rfl
@[simp] theorem raise_arg2 (e : ErrorKind) (s : State) : (raise e s).arg2 = s.arg2 := rfl
@[simp] theorem raise_arg3 (e : ErrorKind) (s : State) : (raise e s).arg3 = s.arg3 := rfl
@[simp] theorem raise_counter (e : ErrorKind) (s : State) : (raise e s).counter = s.counter := rfl
@[simp] theorem raise_time (e : ErrorKind) (s : State) : (raise e s).time = s.time := rfl
@[simp] theorem raise_passIn (e : ErrorKind) (s : State) : (raise e s).passIn = s.passIn := rfl
@[simp] theorem raise_passLen (e : ErrorKind) (s : State) : (raise e s).passLen = s.passLen := rfl
@[simp] theorem raise_secret (e : ErrorKind) (s : State) : (raise e s).secret = s.secret := rfl
@[simp] theorem raise_secretLen (e : ErrorKind) (s : State) : (raise e s).secretLen = s.secretLen := rfl
@[simp] theorem raise_passOut (e : ErrorKind) (s : State) : (raise e s).passOut = s.passOut := rfl
@[simp] theorem raise_passOutLen (e : ErrorKind) (s : State) : (raise e s).passOutLen = s.passOutLen := rfl
@[simp] theorem raise_err (e : ErrorKind) (s : State) : (raise e s).err = e.code := rfl
@[simp] theorem raise_matchFlag (e : ErrorKind) (s : State) : (raise e s).matchFlag = s.matchFlag := rfl
@[simp] theorem raise_params (e : ErrorKind) (s : State) : (raise e s).params = s.params := rfl
@[simp] theorem raise_pending (e : ErrorKind) (s : State) : (raise e s).pending = s.pending := rfl
@[simp] theorem raise_replies (e : ErrorKind) (s : State) : (raise e s).replies = s.replies := rfl

/-! ### `setMatch` -/

@[simp] theorem setMatch_digits (b : Bool) (s : State) : (setMatch b s).digits = s.digits := rfl
@[simp] theorem setMatch_alg (b : Bool) (s : State) : (setMatch b s).alg = s.alg := rfl
@[simp] theorem setMatch_period (b : Bool) (s : State) : (setMatch b s).period = s.period := rfl
@[simp] theorem setMatch_skew (b : Bool) (s : State) : (setMatch b s).skew = s.skew := rfl
@[simp] theorem setMatch_arg0 (b : Bool) (s : State) : (setMatch b s).arg0 = s.arg0 := rfl
@[simp] theorem setMatch_arg1 (b : Bool) (s : State) : (setMatch b s).arg1 = s.arg1 := rfl
@[simp] theorem setMatch_arg2 (b : Bool) (s : State) : (setMatch b s).arg2 = s.arg2 := rfl
@[simp] theorem setMatch_arg3 (b : Bool) (s : State) : (setMatch b s).arg3 = s.arg3 := rfl
@[simp] theorem setMatch_counter (b : Bool) (s : State) : (setMatch b s).counter = s.counter := rfl
@[simp] theorem setMatch_time (b : Bool) (s : State) : (setMatch b s).time = s.time := rfl
@[simp] theorem setMatch_passIn (b : Bool) (s : State) : (setMatch b s).passIn = s.passIn := rfl
@[simp] theorem setMatch_passLen (b : Bool) (s : State) : (setMatch b s).passLen = s.passLen := rfl
@[simp] theorem setMatch_secret (b : Bool) (s : State) : (setMatch b s).secret = s.secret := rfl
@[simp] theorem setMatch_secretLen (b : Bool) (s : State) : (setMatch b s).secretLen = s.secretLen := rfl
@[simp] theorem setMatch_passOut (b : Bool) (s : State) : (setMatch b s).passOut = s.passOut := rfl
@[simp] theorem setMatch_passOutLen (b : Bool) (s : State) : (setMatch b s).passOutLen = s.passOutLen := rfl
@[simp] theorem setMatch_err (b : Bool) (s : State) : (setMatch b s).err = s.err := rfl
@[simp] theorem setMatch_matchFlag (b : Bool) (s : State) : (setMatch b s).matchFlag = b := rfl
@[simp] theorem setMatch_params (b : Bool) (s : State) : (setMatch b s).params = s.params := rfl
@[simp] theorem setMatch_pending (b : Bool) (s : State) : (setMatch b s).pending = s.pending := rfl
@[simp] theorem setMatch_replies (b : Bool) (s : State) : (setMatch b s).replies = s.replies := rfl

/-! ### `putPasscode` -/

@[simp] theorem putPasscode_digits (bs : List Byte) (s : State) : (putPasscode bs s).digits = s.digits := rfl
@[simp] theorem putPasscode_alg (bs : List Byte) (s : State) : (putPasscode bs s).alg = s.alg := rfl
@[simp] theorem putPasscode_period (bs : List Byte) (s : State) : (putPasscode bs s).period = s.period := rfl
@[simp] theorem putPasscode_skew (bs : List Byte) (s : State) : (putPasscode bs s).skew = s.skew := rfl
@[simp] theorem putPasscode_arg0 (bs : List Byte) (s : State) : (putPasscode bs s).arg0 = s.arg0 := rfl
@[simp] theorem putPasscode_arg1 (bs : List Byte) (s : State) : (putPasscode bs s).arg1 = s.arg1 := rfl
@[simp] theorem putPasscode_arg2 (bs : List Byte) (s : State) : (putPasscode bs s).arg2 = s.arg2 := rfl
@[simp] theorem putPasscode_arg3 (bs : List Byte) (s : State) : (putPasscode bs s).arg3 = s.arg3 := rfl
@[simp] theorem putPasscode_counter (bs : List Byte) (s : State) : (putPasscode bs s).counter = s.counter := rfl
@[simp] theorem putPasscode_time (bs : List Byte) (s : State) : (putPasscode bs s).time = s.time := rfl
@[simp] theorem putPasscode_passIn (bs : List Byte) (s : State) : (putPasscode bs s).passIn = s.passIn := rfl
@[simp] theorem putPasscode_passLen (bs : List Byte) (s : State) : (putPasscode bs s).passLen = s.passLen := rfl
@[simp] theorem putPasscode_secret (bs : List Byte) (s : State) : (putPasscode bs s).secret = s.secret := rfl
@[simp] theorem putPasscode_secretLen (bs : List Byte) (s : State) : (putPasscode bs s).secretLen = s.secretLen := rfl
@[simp] theorem putPasscode_passOut (bs : List Byte) (s : State) : (putPasscode bs s).passOut = padBytes8 bs := rfl
@[simp] theorem putPasscode_passOutLen (bs : List Byte) (s : State) : (putPasscode bs s).passOutLen = s.digits := rfl
@[simp] theorem putPasscode_err (bs : List Byte) (s : State) : (putPasscode bs s).err = s.err := rfl
@[simp] theorem putPasscode_matchFlag (bs : List Byte) (s : State) : (putPasscode bs s).matchFlag = s.matchFlag := rfl
@[simp] theorem putPasscode_params (bs : List Byte) (s : State) : (putPasscode bs s).params = s.params := rfl
@[simp] theorem putPasscode_pending (bs : List Byte) (s : State) : (putPasscode bs s).pending = s.pending := rfl
@[simp] theorem putPasscode_replies (bs : List Byte) (s : State) : (putPasscode bs s).replies = s.replies := rfl

/-! ### `setCounter` -/

@[simp] theorem setCounter_digits (c : DWord) (s : State) : (setCounter c s).digits = s.digits := rfl
@[simp] theorem setCounter_alg (c : DWord) (s : State) : (setCounter c s).alg = s.alg := rfl
@[simp] theorem setCounter_period (c : DWord) (s : State) : (setCounter c s).period = s.period := rfl
@[simp] theorem setCounter_skew (c : DWord) (s : State) : (setCounter c s).skew = s.skew := rfl
@[simp] theorem setCounter_arg0 (c : DWord) (s : State) : (setCounter c s).arg0 = s.arg0 := rfl
@[simp] theorem setCounter_arg1 (c : DWord) (s : State) : (setCounter c s).arg1 = s.arg1 := rfl
@[simp] theorem setCounter_arg2 (c : DWord) (s : State) : (setCounter c s).arg2 = s.arg2 := rfl
@[simp] theorem setCounter_arg3 (c : DWord) (s : State) : (setCounter c s).arg3 = s.arg3 := rfl
@[simp] theorem setCounter_counter (c : DWord) (s : State) : (setCounter c s).counter = c := rfl
@[simp] theorem setCounter_time (c : DWord) (s : State) : (setCounter c s).time = s.time := rfl
@[simp] theorem setCounter_passIn (c : DWord) (s : State) : (setCounter c s).passIn = s.passIn := rfl
@[simp] theorem setCounter_passLen (c : DWord) (s : State) : (setCounter c s).passLen = s.passLen := rfl
@[simp] theorem setCounter_secret (c : DWord) (s : State) : (setCounter c s).secret = s.secret := rfl
@[simp] theorem setCounter_secretLen (c : DWord) (s : State) : (setCounter c s).secretLen = s.secretLen := rfl
@[simp] theorem setCounter_passOut (c : DWord) (s : State) : (setCounter c s).passOut = s.passOut := rfl
@[simp] theorem setCounter_passOutLen (c : DWord) (s : State) : (setCounter c s).passOutLen = s.passOutLen := rfl
@[simp] theorem setCounter_err (c : DWord) (s : State) : (setCounter c s).err = s.err := rfl
@[simp] theorem setCounter_matchFlag (c : DWord) (s : State) : (setCounter c s).matchFlag = s.matchFlag := rfl
@[simp] theorem setCounter_params (c : DWord) (s : State) : (setCounter c s).params = s.params := rfl
@[simp] theorem setCounter_pending (c : DWord) (s : State) : (setCounter c s).pending = s.pending := rfl
@[simp] theorem setCounter_replies (c : DWord) (s : State) : (setCounter c s).replies = s.replies := rfl

/-! ### `setDigits` -/

@[simp] theorem setDigits_digits (a : Word) (s : State) : (setDigits a s).digits = a.extractLsb' 0 4 := rfl
@[simp] theorem setDigits_alg (a : Word) (s : State) : (setDigits a s).alg = s.alg := rfl
@[simp] theorem setDigits_period (a : Word) (s : State) : (setDigits a s).period = s.period := rfl
@[simp] theorem setDigits_skew (a : Word) (s : State) : (setDigits a s).skew = s.skew := rfl
@[simp] theorem setDigits_arg0 (a : Word) (s : State) : (setDigits a s).arg0 = s.arg0 := rfl
@[simp] theorem setDigits_arg1 (a : Word) (s : State) : (setDigits a s).arg1 = s.arg1 := rfl
@[simp] theorem setDigits_arg2 (a : Word) (s : State) : (setDigits a s).arg2 = s.arg2 := rfl
@[simp] theorem setDigits_arg3 (a : Word) (s : State) : (setDigits a s).arg3 = s.arg3 := rfl
@[simp] theorem setDigits_counter (a : Word) (s : State) : (setDigits a s).counter = s.counter := rfl
@[simp] theorem setDigits_time (a : Word) (s : State) : (setDigits a s).time = s.time := rfl
@[simp] theorem setDigits_passIn (a : Word) (s : State) : (setDigits a s).passIn = s.passIn := rfl
@[simp] theorem setDigits_passLen (a : Word) (s : State) : (setDigits a s).passLen = s.passLen := rfl
@[simp] theorem setDigits_secret (a : Word) (s : State) : (setDigits a s).secret = s.secret := rfl
@[simp] theorem setDigits_secretLen (a : Word) (s : State) : (setDigits a s).secretLen = s.secretLen := rfl
@[simp] theorem setDigits_passOut (a : Word) (s : State) : (setDigits a s).passOut = s.passOut := rfl
@[simp] theorem setDigits_passOutLen (a : Word) (s : State) : (setDigits a s).passOutLen = s.passOutLen := rfl
@[simp] theorem setDigits_err (a : Word) (s : State) : (setDigits a s).err = s.err := rfl
@[simp] theorem setDigits_matchFlag (a : Word) (s : State) : (setDigits a s).matchFlag = s.matchFlag := rfl
@[simp] theorem setDigits_params (a : Word) (s : State) : (setDigits a s).params = s.params := rfl
@[simp] theorem setDigits_pending (a : Word) (s : State) : (setDigits a s).pending = s.pending := rfl
@[simp] theorem setDigits_replies (a : Word) (s : State) : (setDigits a s).replies = s.replies := rfl

/-! ### `setAlg` -/

@[simp] theorem setAlg_digits (a : Word) (s : State) : (setAlg a s).digits = s.digits := rfl
@[simp] theorem setAlg_alg (a : Word) (s : State) : (setAlg a s).alg = a.extractLsb' 0 3 := rfl
@[simp] theorem setAlg_period (a : Word) (s : State) : (setAlg a s).period = s.period := rfl
@[simp] theorem setAlg_skew (a : Word) (s : State) : (setAlg a s).skew = s.skew := rfl
@[simp] theorem setAlg_arg0 (a : Word) (s : State) : (setAlg a s).arg0 = s.arg0 := rfl
@[simp] theorem setAlg_arg1 (a : Word) (s : State) : (setAlg a s).arg1 = s.arg1 := rfl
@[simp] theorem setAlg_arg2 (a : Word) (s : State) : (setAlg a s).arg2 = s.arg2 := rfl
@[simp] theorem setAlg_arg3 (a : Word) (s : State) : (setAlg a s).arg3 = s.arg3 := rfl
@[simp] theorem setAlg_counter (a : Word) (s : State) : (setAlg a s).counter = s.counter := rfl
@[simp] theorem setAlg_time (a : Word) (s : State) : (setAlg a s).time = s.time := rfl
@[simp] theorem setAlg_passIn (a : Word) (s : State) : (setAlg a s).passIn = s.passIn := rfl
@[simp] theorem setAlg_passLen (a : Word) (s : State) : (setAlg a s).passLen = s.passLen := rfl
@[simp] theorem setAlg_secret (a : Word) (s : State) : (setAlg a s).secret = s.secret := rfl
@[simp] theorem setAlg_secretLen (a : Word) (s : State) : (setAlg a s).secretLen = s.secretLen := rfl
@[simp] theorem setAlg_passOut (a : Word) (s : State) : (setAlg a s).passOut = s.passOut := rfl
@[simp] theorem setAlg_passOutLen (a : Word) (s : State) : (setAlg a s).passOutLen = s.passOutLen := rfl
@[simp] theorem setAlg_err (a : Word) (s : State) : (setAlg a s).err = s.err := rfl
@[simp] theorem setAlg_matchFlag (a : Word) (s : State) : (setAlg a s).matchFlag = s.matchFlag := rfl
@[simp] theorem setAlg_params (a : Word) (s : State) : (setAlg a s).params = s.params := rfl
@[simp] theorem setAlg_pending (a : Word) (s : State) : (setAlg a s).pending = s.pending := rfl
@[simp] theorem setAlg_replies (a : Word) (s : State) : (setAlg a s).replies = s.replies := rfl

/-! ### `setPeriod` -/

@[simp] theorem setPeriod_digits (a : Word) (s : State) : (setPeriod a s).digits = s.digits := rfl
@[simp] theorem setPeriod_alg (a : Word) (s : State) : (setPeriod a s).alg = s.alg := rfl
@[simp] theorem setPeriod_period (a : Word) (s : State) : (setPeriod a s).period = a := rfl
@[simp] theorem setPeriod_skew (a : Word) (s : State) : (setPeriod a s).skew = s.skew := rfl
@[simp] theorem setPeriod_arg0 (a : Word) (s : State) : (setPeriod a s).arg0 = s.arg0 := rfl
@[simp] theorem setPeriod_arg1 (a : Word) (s : State) : (setPeriod a s).arg1 = s.arg1 := rfl
@[simp] theorem setPeriod_arg2 (a : Word) (s : State) : (setPeriod a s).arg2 = s.arg2 := rfl
@[simp] theorem setPeriod_arg3 (a : Word) (s : State) : (setPeriod a s).arg3 = s.arg3 := rfl
@[simp] theorem setPeriod_counter (a : Word) (s : State) : (setPeriod a s).counter = s.counter := rfl
@[simp] theorem setPeriod_time (a : Word) (s : State) : (setPeriod a s).time = s.time := rfl
@[simp] theorem setPeriod_passIn (a : Word) (s : State) : (setPeriod a s).passIn = s.passIn := rfl
@[simp] theorem setPeriod_passLen (a : Word) (s : State) : (setPeriod a s).passLen = s.passLen := rfl
@[simp] theorem setPeriod_secret (a : Word) (s : State) : (setPeriod a s).secret = s.secret := rfl
@[simp] theorem setPeriod_secretLen (a : Word) (s : State) : (setPeriod a s).secretLen = s.secretLen := rfl
@[simp] theorem setPeriod_passOut (a : Word) (s : State) : (setPeriod a s).passOut = s.passOut := rfl
@[simp] theorem setPeriod_passOutLen (a : Word) (s : State) : (setPeriod a s).passOutLen = s.passOutLen := rfl
@[simp] theorem setPeriod_err (a : Word) (s : State) : (setPeriod a s).err = s.err := rfl
@[simp] theorem setPeriod_matchFlag (a : Word) (s : State) : (setPeriod a s).matchFlag = s.matchFlag := rfl
@[simp] theorem setPeriod_params (a : Word) (s : State) : (setPeriod a s).params = s.params := rfl
@[simp] theorem setPeriod_pending (a : Word) (s : State) : (setPeriod a s).pending = s.pending := rfl
@[simp] theorem setPeriod_replies (a : Word) (s : State) : (setPeriod a s).replies = s.replies := rfl

/-! ### `setSkew` -/

@[simp] theorem setSkew_digits (a : Word) (s : State) : (setSkew a s).digits = s.digits := rfl
@[simp] theorem setSkew_alg (a : Word) (s : State) : (setSkew a s).alg = s.alg := rfl
@[simp] theorem setSkew_period (a : Word) (s : State) : (setSkew a s).period = s.period := rfl
@[simp] theorem setSkew_skew (a : Word) (s : State) : (setSkew a s).skew = a := rfl
@[simp] theorem setSkew_arg0 (a : Word) (s : State) : (setSkew a s).arg0 = s.arg0 := rfl
@[simp] theorem setSkew_arg1 (a : Word) (s : State) : (setSkew a s).arg1 = s.arg1 := rfl
@[simp] theorem setSkew_arg2 (a : Word) (s : State) : (setSkew a s).arg2 = s.arg2 := rfl
@[simp] theorem setSkew_arg3 (a : Word) (s : State) : (setSkew a s).arg3 = s.arg3 := rfl
@[simp] theorem setSkew_counter (a : Word) (s : State) : (setSkew a s).counter = s.counter := rfl
@[simp] theorem setSkew_time (a : Word) (s : State) : (setSkew a s).time = s.time := rfl
@[simp] theorem setSkew_passIn (a : Word) (s : State) : (setSkew a s).passIn = s.passIn := rfl
@[simp] theorem setSkew_passLen (a : Word) (s : State) : (setSkew a s).passLen = s.passLen := rfl
@[simp] theorem setSkew_secret (a : Word) (s : State) : (setSkew a s).secret = s.secret := rfl
@[simp] theorem setSkew_secretLen (a : Word) (s : State) : (setSkew a s).secretLen = s.secretLen := rfl
@[simp] theorem setSkew_passOut (a : Word) (s : State) : (setSkew a s).passOut = s.passOut := rfl
@[simp] theorem setSkew_passOutLen (a : Word) (s : State) : (setSkew a s).passOutLen = s.passOutLen := rfl
@[simp] theorem setSkew_err (a : Word) (s : State) : (setSkew a s).err = s.err := rfl
@[simp] theorem setSkew_matchFlag (a : Word) (s : State) : (setSkew a s).matchFlag = s.matchFlag := rfl
@[simp] theorem setSkew_params (a : Word) (s : State) : (setSkew a s).params = s.params := rfl
@[simp] theorem setSkew_pending (a : Word) (s : State) : (setSkew a s).pending = s.pending := rfl
@[simp] theorem setSkew_replies (a : Word) (s : State) : (setSkew a s).replies = s.replies := rfl

/-! ### `pushReply` -/

@[simp] theorem pushReply_digits (w : Word) (s : State) : (pushReply w s).digits = s.digits := rfl
@[simp] theorem pushReply_alg (w : Word) (s : State) : (pushReply w s).alg = s.alg := rfl
@[simp] theorem pushReply_period (w : Word) (s : State) : (pushReply w s).period = s.period := rfl
@[simp] theorem pushReply_skew (w : Word) (s : State) : (pushReply w s).skew = s.skew := rfl
@[simp] theorem pushReply_arg0 (w : Word) (s : State) : (pushReply w s).arg0 = s.arg0 := rfl
@[simp] theorem pushReply_arg1 (w : Word) (s : State) : (pushReply w s).arg1 = s.arg1 := rfl
@[simp] theorem pushReply_arg2 (w : Word) (s : State) : (pushReply w s).arg2 = s.arg2 := rfl
@[simp] theorem pushReply_arg3 (w : Word) (s : State) : (pushReply w s).arg3 = s.arg3 := rfl
@[simp] theorem pushReply_counter (w : Word) (s : State) : (pushReply w s).counter = s.counter := rfl
@[simp] theorem pushReply_time (w : Word) (s : State) : (pushReply w s).time = s.time := rfl
@[simp] theorem pushReply_passIn (w : Word) (s : State) : (pushReply w s).passIn = s.passIn := rfl
@[simp] theorem pushReply_passLen (w : Word) (s : State) : (pushReply w s).passLen = s.passLen := rfl
@[simp] theorem pushReply_secret (w : Word) (s : State) : (pushReply w s).secret = s.secret := rfl
@[simp] theorem pushReply_secretLen (w : Word) (s : State) : (pushReply w s).secretLen = s.secretLen := rfl
@[simp] theorem pushReply_passOut (w : Word) (s : State) : (pushReply w s).passOut = s.passOut := rfl
@[simp] theorem pushReply_passOutLen (w : Word) (s : State) : (pushReply w s).passOutLen = s.passOutLen := rfl
@[simp] theorem pushReply_err (w : Word) (s : State) : (pushReply w s).err = s.err := rfl
@[simp] theorem pushReply_matchFlag (w : Word) (s : State) : (pushReply w s).matchFlag = s.matchFlag := rfl
@[simp] theorem pushReply_params (w : Word) (s : State) : (pushReply w s).params = s.params := rfl
@[simp] theorem pushReply_pending (w : Word) (s : State) : (pushReply w s).pending = s.pending := rfl
@[simp] theorem pushReply_replies (w : Word) (s : State) : (pushReply w s).replies = s.replies ++ [w] := rfl

/-! ### `pushEvent` -/

@[simp] theorem pushEvent_digits (ev : HostEvent) (s : State) : (pushEvent ev s).digits = s.digits := rfl
@[simp] theorem pushEvent_alg (ev : HostEvent) (s : State) : (pushEvent ev s).alg = s.alg := rfl
@[simp] theorem pushEvent_period (ev : HostEvent) (s : State) : (pushEvent ev s).period = s.period := rfl
@[simp] theorem pushEvent_skew (ev : HostEvent) (s : State) : (pushEvent ev s).skew = s.skew := rfl
@[simp] theorem pushEvent_arg0 (ev : HostEvent) (s : State) : (pushEvent ev s).arg0 = s.arg0 := rfl
@[simp] theorem pushEvent_arg1 (ev : HostEvent) (s : State) : (pushEvent ev s).arg1 = s.arg1 := rfl
@[simp] theorem pushEvent_arg2 (ev : HostEvent) (s : State) : (pushEvent ev s).arg2 = s.arg2 := rfl
@[simp] theorem pushEvent_arg3 (ev : HostEvent) (s : State) : (pushEvent ev s).arg3 = s.arg3 := rfl
@[simp] theorem pushEvent_counter (ev : HostEvent) (s : State) : (pushEvent ev s).counter = s.counter := rfl
@[simp] theorem pushEvent_time (ev : HostEvent) (s : State) : (pushEvent ev s).time = s.time := rfl
@[simp] theorem pushEvent_passIn (ev : HostEvent) (s : State) : (pushEvent ev s).passIn = s.passIn := rfl
@[simp] theorem pushEvent_passLen (ev : HostEvent) (s : State) : (pushEvent ev s).passLen = s.passLen := rfl
@[simp] theorem pushEvent_secret (ev : HostEvent) (s : State) : (pushEvent ev s).secret = s.secret := rfl
@[simp] theorem pushEvent_secretLen (ev : HostEvent) (s : State) : (pushEvent ev s).secretLen = s.secretLen := rfl
@[simp] theorem pushEvent_passOut (ev : HostEvent) (s : State) : (pushEvent ev s).passOut = s.passOut := rfl
@[simp] theorem pushEvent_passOutLen (ev : HostEvent) (s : State) : (pushEvent ev s).passOutLen = s.passOutLen := rfl
@[simp] theorem pushEvent_err (ev : HostEvent) (s : State) : (pushEvent ev s).err = s.err := rfl
@[simp] theorem pushEvent_matchFlag (ev : HostEvent) (s : State) : (pushEvent ev s).matchFlag = s.matchFlag := rfl
@[simp] theorem pushEvent_params (ev : HostEvent) (s : State) : (pushEvent ev s).params = s.params := rfl
@[simp] theorem pushEvent_pending (ev : HostEvent) (s : State) : (pushEvent ev s).pending = ev :: s.pending := rfl
@[simp] theorem pushEvent_replies (ev : HostEvent) (s : State) : (pushEvent ev s).replies = s.replies := rfl

/-! ### `applyReset` -/

@[simp] theorem applyReset_digits (s : State) : (applyReset s).digits = State.reset.digits := rfl
@[simp] theorem applyReset_alg (s : State) : (applyReset s).alg = State.reset.alg := rfl
@[simp] theorem applyReset_period (s : State) : (applyReset s).period = State.reset.period := rfl
@[simp] theorem applyReset_skew (s : State) : (applyReset s).skew = State.reset.skew := rfl
@[simp] theorem applyReset_arg0 (s : State) : (applyReset s).arg0 = State.reset.arg0 := rfl
@[simp] theorem applyReset_arg1 (s : State) : (applyReset s).arg1 = State.reset.arg1 := rfl
@[simp] theorem applyReset_arg2 (s : State) : (applyReset s).arg2 = State.reset.arg2 := rfl
@[simp] theorem applyReset_arg3 (s : State) : (applyReset s).arg3 = State.reset.arg3 := rfl
@[simp] theorem applyReset_counter (s : State) : (applyReset s).counter = State.reset.counter := rfl
@[simp] theorem applyReset_time (s : State) : (applyReset s).time = State.reset.time := rfl
@[simp] theorem applyReset_passIn (s : State) : (applyReset s).passIn = State.reset.passIn := rfl
@[simp] theorem applyReset_passLen (s : State) : (applyReset s).passLen = State.reset.passLen := rfl
@[simp] theorem applyReset_secret (s : State) : (applyReset s).secret = State.reset.secret := rfl
@[simp] theorem applyReset_secretLen (s : State) : (applyReset s).secretLen = State.reset.secretLen := rfl
@[simp] theorem applyReset_passOut (s : State) : (applyReset s).passOut = State.reset.passOut := rfl
@[simp] theorem applyReset_passOutLen (s : State) : (applyReset s).passOutLen = State.reset.passOutLen := rfl
@[simp] theorem applyReset_err (s : State) : (applyReset s).err = State.reset.err := rfl
@[simp] theorem applyReset_matchFlag (s : State) : (applyReset s).matchFlag = State.reset.matchFlag := rfl
@[simp] theorem applyReset_params (s : State) : (applyReset s).params = s.params := rfl
@[simp] theorem applyReset_pending (s : State) : (applyReset s).pending = s.pending := rfl
@[simp] theorem applyReset_replies (s : State) : (applyReset s).replies = s.replies := rfl

end Sys2Proof.Machine
end

