-- ==== Sys2Proof/Laws/Engine.lean ====
section
/-! SUPPORT. The shared operations of the engine commands: what the configuration and the checks can be, and what the
shared functions return. -/

namespace Sys2Proof.Machine

theorem digitCountOf_eq_some {n : Nat} {d : DigitCount} : digitCountOf n = some d ↔ n = d.toNat := by
  cases d <;> simp only [digitCountOf, DigitCount.toNat] <;> (split <;> simp_all)

theorem hashAlgOf_eq_some {n : Nat} {a : HashAlg} : hashAlgOf n = some a ↔ n = a.number := by
  cases a <;> simp only [hashAlgOf, HashAlg.number] <;> repeat' split
  all_goals simp_all

theorem digitCountOf_eq_none {n : Nat} : digitCountOf n = none ↔ n ≠ 6 ∧ n ≠ 8 := by
  simp only [digitCountOf]; split <;> simp_all

theorem hashAlgOf_eq_none {n : Nat} : hashAlgOf n = none ↔ n < 1 ∨ 4 < n := by
  simp only [hashAlgOf]; repeat' split
  all_goals (simp; omega)

/-- The engine's configuration is present exactly when both fields hold it (41_hotp.md R85). -/
theorem engineConfig_eq_some {s : State} {a : HashAlg} {d : DigitCount} :
    engineConfig s = some (a, d) ↔ s.digits.toNat = d.toNat ∧ s.alg.toNat = a.number := by
  rw [← digitCountOf_eq_some, ← hashAlgOf_eq_some]
  simp only [engineConfig]
  split
  · rename_i d' a' hd ha; simp [hd, ha, and_comm]
  · rename_i h
    simp only [reduceCtorEq, false_iff, not_and]
    intro hd ha
    exact h d a hd ha

theorem secretValid_iff (s : State) :
    secretValid s = true ↔ 1 ≤ s.secretLen.toNat ∧ s.secretLen.toNat ≤ s.params.secretMax := by
  simp [secretValid]

theorem lenOK_iff (s : State) : lenOK s = true ↔ s.passLen.toNat = s.digits.toNat := by simp [lenOK]

/-! The results are no operand: clearing them changes nothing a command reads (10_state.md R26). -/

@[simp] theorem engineConfig_clearResults (s : State) : engineConfig (clearResults s) = engineConfig s := rfl
@[simp] theorem secretValid_clearResults (s : State) : secretValid (clearResults s) = secretValid s := rfl
@[simp] theorem secretKey_clearResults (s : State) : secretKey (clearResults s) = secretKey s := rfl
@[simp] theorem lenOK_clearResults (s : State) : lenOK (clearResults s) = lenOK s := rfl
@[simp] theorem passEq_clearResults (s : State) (r : List Byte) : passEq (clearResults s) r = passEq s r := rfl

/-- Everything the checks of an engine command can do (41_hotp.md R85, 60_exceptions.md R172). -/
theorem engineChecks_cases (s : State) (k : HashAlg → DigitCount → List Byte → State) :
    (engineConfig s = none ∧ engineChecks s k = raise .invalidConfig s) ∨
    (∃ a d, engineConfig s = some (a, d) ∧ secretValid s = false ∧ engineChecks s k = raise .secretLength s) ∨
    (∃ a d, engineConfig s = some (a, d) ∧ secretValid s = true ∧ engineChecks s k = k a d (secretKey s)) := by
  unfold engineChecks
  split
  · exact .inl ⟨‹_›, rfl⟩
  · rename_i a d h
    cases hs : secretValid s
    · exact .inr (.inl ⟨a, d, h, rfl, by simp⟩)
    · exact .inr (.inr ⟨a, d, h, rfl, by simp⟩)

@[simp] theorem formatCode_length (code : Nat) (d : DigitCount) : (formatCode code d).length = d.toNat := by
  simp [formatCode]

/-- The character at each place of a formatted code (41_hotp.md R83). -/
theorem formatCode_getD (code : Nat) (d : DigitCount) (i : Nat) (h : i < d.toNat) :
    (formatCode code d).getD i 0 = asciiDigit (code / 10 ^ (d.toNat - 1 - i) % 10) := by
  simp [formatCode, List.getD, h]

/-- `Hotp` is the chain of 41_hotp.md R84: it faults exactly when the truncation does. -/
theorem hotp_eq (alg : HashAlg) (d : DigitCount) (key : List Byte) (c : DWord) :
    hotp alg d key c = (dynamicTruncate (hmac alg key (be64 c))).map fun p => formatCode (codeOf p d) d := by
  unfold hotp; split <;> simp_all

theorem hotp_length {alg : HashAlg} {d : DigitCount} {key : List Byte} {c : DWord} {r : List Byte}
    (h : hotp alg d key c = some r) : r.length = d.toNat := by
  rw [hotp_eq, Option.map_eq_some_iff] at h
  obtain ⟨p, -, rfl⟩ := h
  exact formatCode_length _ _

/-- What the window search returns (42_totp.md R103). -/
theorem windowSearch_eq_matched {h : DWord → Option (List Byte)} {eq : List Byte → Bool} {cs : List DWord} :
    windowSearch h eq cs = .matched ↔ ∃ c ∈ cs, ∃ r, h c = some r ∧ eq r = true := by
  unfold windowSearch
  split
  · rename_i hm
    simp only [List.any_eq_true, Option.any_eq_true] at hm
    simpa using hm
  · rename_i hm
    simp only [List.any_eq_true, Option.any_eq_true] at hm
    constructor
    · intro h'; split at h' <;> cases h'
    · exact fun h' => (hm h').elim

theorem windowSearch_eq_faulted {h : DWord → Option (List Byte)} {eq : List Byte → Bool} {cs : List DWord} :
    windowSearch h eq cs = .faulted ↔
      (∀ c ∈ cs, ∀ r, h c = some r → eq r = false) ∧ ∃ c ∈ cs, h c = none := by
  unfold windowSearch
  split
  · rename_i hm
    simp only [List.any_eq_true, Option.any_eq_true] at hm
    obtain ⟨c, hc, r, hr, he⟩ := hm
    simp only [reduceCtorEq, false_iff, not_and]
    intro hn
    simp [hn c hc r hr] at he
  · rename_i hm
    simp only [List.any_eq_true, Option.any_eq_true, not_exists, not_and, Bool.not_eq_true] at hm
    split
    · rename_i hf
      simp only [List.any_eq_true, Option.isNone_iff_eq_none] at hf
      simpa using ⟨hm, hf⟩
    · rename_i hf
      simp only [List.any_eq_true, Option.isNone_iff_eq_none] at hf
      simpa using fun _ => by simpa using hf

theorem bufferByte_eq (v : Vector Byte 8) (i : Nat) (h : i < 8) : bufferByte v i = v[i] := by
  simp [bufferByte, List.getD, h]

/-- Bytes `0 .. n-1` of the supplied passcode and of an expected one are compared, and no other (41_hotp.md R86). -/
theorem passEq_iff (s : State) (r : List Byte) :
    passEq s r = true ↔ ∀ i < s.digits.toNat, bufferByte s.passIn i = r.getD i 0 := by
  simp [passEq]

end Sys2Proof.Machine
end

