-- ==== Sys2Proof/Laws/Exec.lean ====
section
/-! SUPPORT. Everything a command can do, once, so that later proofs do not unfold the meanings. -/

namespace Sys2Proof.Machine

/-- The errors a command can raise (60_exceptions.md R171). -/
def errorsOf : Instr → List ErrorKind
  | .hotpGen => [.invalidConfig, .secretLength, .truncationRange]
  | .hotpVal => [.invalidDigitsLength, .invalidConfig, .secretLength, .truncationRange]
  | .totpCtr => [.invalidParameter]
  | .totpVal => [.invalidParameter, .invalidDigitsLength, .invalidConfig, .secretLength, .truncationRange]
  | .cfgSetDigits => [.invalidParameter]
  | .cfgSetAlg => [.invalidParameter]
  | .cfgSetPeriod => [.invalidParameter]
  | .cfgSetSkew => []
  | .cfgNew => [.invalidConfig, .invalidParameter]

/-- The states a command can end in: an error reported on cleared results, or the one effect its rule gives. -/
inductive ExecResult (i : Instr) (s : State) : State → Prop where
  | error (e : ErrorKind) (he : e ∈ errorsOf i) : ExecResult i s (raise e (clearResults s))
  | passcode (alg : HashAlg) (d : DigitCount) (r : List Byte) (hi : i = .hotpGen) (hc : engineConfig s = some (alg, d))
      (hs : secretValid s = true) (hr : hotp alg d (secretKey s) s.counter = some r) :
      ExecResult i s (putPasscode r (clearResults s))
  | boolean (b : Bool) (hi : i = .hotpVal ∨ i = .totpVal) : ExecResult i s (setMatch b (clearResults s))
  | counter (hi : i = .totpCtr) (hp : s.period ≠ 0) : ExecResult i s (setCounter (baseCounter s) (clearResults s))
  | digits (hi : i = .cfgSetDigits) (h : digitsArgLegal s.arg0 = true) :
      ExecResult i s (setDigits s.arg0 (clearResults s))
  | alg (hi : i = .cfgSetAlg) (h : algArgLegal s.arg0 = true) : ExecResult i s (setAlg s.arg0 (clearResults s))
  | period (hi : i = .cfgSetPeriod) (h : periodArgLegal s.arg0 = true) :
      ExecResult i s (setPeriod s.arg0 (clearResults s))
  | skew (hi : i = .cfgSetSkew) : ExecResult i s (setSkew s.arg0 (clearResults s))
  | configuration (hi : i = .cfgNew) (hd : digitsArgLegal s.arg0 = true) (ha : algArgLegal s.arg1 = true)
      (hp : periodArgLegal s.arg2 = true) :
      ExecResult i s (setSkew s.arg3 (setPeriod s.arg2 (setAlg s.arg1 (setDigits s.arg0 (clearResults s)))))

theorem exec_result (i : Instr) (s : State) : ∃ t, exec i s = .next t ∧ ExecResult i s t := by
  cases i with
  | hotpGen =>
    refine ⟨_, rfl, ?_⟩
    rcases engineChecks_cases (clearResults s) (fun alg d key => generateResult (clearResults s) (hotp alg d key (clearResults s).counter)) with ⟨-, h⟩ | ⟨a, d, -, -, h⟩ | ⟨a, d, hc, hs, h⟩
    · rw [h]; exact .error _ (by decide)
    · rw [h]; exact .error _ (by decide)
    · rw [h]
      cases hh : hotp a d (secretKey (clearResults s)) (clearResults s).counter with
      | none => exact .error .truncationRange (by decide)
      | some r => exact .passcode a d r rfl hc hs hh
  | hotpVal =>
    unfold exec execHotpVal
    simp only
    split
    · refine ⟨_, rfl, ?_⟩
      rcases engineChecks_cases (clearResults s) (fun alg d key => validateResult (clearResults s) (hotp alg d key (clearResults s).counter)) with ⟨-, h⟩ | ⟨a, d, -, -, h⟩ | ⟨a, d, hc, hs, h⟩
      · rw [h]; exact .error _ (by decide)
      · rw [h]; exact .error _ (by decide)
      · rw [h]
        cases hh : hotp a d (secretKey (clearResults s)) (clearResults s).counter with
        | none => exact .error .truncationRange (by decide)
        | some r => exact .boolean _ (.inl rfl)
    · exact ⟨_, rfl, .error _ (by decide)⟩
  | totpCtr =>
    unfold exec execTotpCtr
    simp only
    split
    · exact ⟨_, rfl, .error _ (by decide)⟩
    · exact ⟨_, rfl, .counter rfl ‹_›⟩
  | totpVal =>
    unfold exec execTotpVal
    simp only
    split
    · exact ⟨_, rfl, .error _ (by decide)⟩
    · split
      · refine ⟨_, rfl, ?_⟩
        rcases engineChecks_cases (clearResults s) (fun alg d key =>
      windowOutcome (clearResults s) (windowSearch (hotp alg d key) (passEq (clearResults s)) (candidates (baseCounter (clearResults s)) (clearResults s).skew.toNat))) with ⟨-, h⟩ | ⟨a, d, -, -, h⟩ | ⟨a, d, hc, hs, h⟩
        · rw [h]; exact .error _ (by decide)
        · rw [h]; exact .error _ (by decide)
        · rw [h]
          generalize windowSearch _ _ _ = w
          cases w with
          | matched => exact .boolean _ (.inr rfl)
          | faulted => exact .error .truncationRange (by decide)
          | unmatched => exact .boolean false (.inr rfl)
      · exact ⟨_, rfl, .error _ (by decide)⟩
  | cfgSetDigits =>
    unfold exec execCfgSetDigits
    simp only
    split
    · exact ⟨_, rfl, .digits rfl ‹_›⟩
    · exact ⟨_, rfl, .error _ (by decide)⟩
  | cfgSetAlg =>
    unfold exec execCfgSetAlg
    simp only
    split
    · exact ⟨_, rfl, .alg rfl ‹_›⟩
    · exact ⟨_, rfl, .error _ (by decide)⟩
  | cfgSetPeriod =>
    unfold exec execCfgSetPeriod
    simp only
    split
    · exact ⟨_, rfl, .period rfl ‹_›⟩
    · exact ⟨_, rfl, .error _ (by decide)⟩
  | cfgSetSkew => exact ⟨_, rfl, .skew rfl⟩
  | cfgNew =>
    unfold exec execCfgNew
    simp only
    split
    · exact ⟨_, rfl, .error _ (by decide)⟩
    · split
      · exact ⟨_, rfl, .error _ (by decide)⟩
      · split
        · exact ⟨_, rfl, .error _ (by decide)⟩
        · refine ⟨_, rfl, .configuration rfl ?_ ?_ ?_⟩ <;> simp_all only [Bool.not_eq_false, Bool.not_eq_eq_eq_not, Bool.not_true, clearResults_arg0, clearResults_arg1, clearResults_arg2]

end Sys2Proof.Machine
end

