-- ==== Sys2Proof/Laws/PerInstr.lean ====
section
/-! SUPPORT. Facts about every command as syntax, one lemma per constructor. -/

namespace Sys2Proof.Laws

/-- The word of a command is legal by the two checks of 30_encoding.md R62, which are written apart from the decoder. -/
def EncodeLegal.Statement (i : Instr) : Prop := WellFormed.instr i = true ∧ WellFormed.commandWord (encode i) = true

theorem EncodeLegal.hotpGen : EncodeLegal.Statement .hotpGen := by unfold EncodeLegal.Statement; decide
theorem EncodeLegal.hotpVal : EncodeLegal.Statement .hotpVal := by unfold EncodeLegal.Statement; decide
theorem EncodeLegal.totpCtr : EncodeLegal.Statement .totpCtr := by unfold EncodeLegal.Statement; decide
theorem EncodeLegal.totpVal : EncodeLegal.Statement .totpVal := by unfold EncodeLegal.Statement; decide
theorem EncodeLegal.cfgSetDigits : EncodeLegal.Statement .cfgSetDigits := by unfold EncodeLegal.Statement; decide
theorem EncodeLegal.cfgSetAlg : EncodeLegal.Statement .cfgSetAlg := by unfold EncodeLegal.Statement; decide
theorem EncodeLegal.cfgSetPeriod : EncodeLegal.Statement .cfgSetPeriod := by unfold EncodeLegal.Statement; decide
theorem EncodeLegal.cfgSetSkew : EncodeLegal.Statement .cfgSetSkew := by unfold EncodeLegal.Statement; decide
theorem EncodeLegal.cfgNew : EncodeLegal.Statement .cfgNew := by unfold EncodeLegal.Statement; decide

end Sys2Proof.Laws
end

