-- ==== Sys2Proof/Laws/Port.lean ====
section
/-! SUPPORT. The host port and the step: what each event does, once, so that later proofs do not unfold the step. -/

namespace Sys2Proof.Machine

theorem step_idle (s : State) (h : s.pending = []) : step s = .next s := by
  simp [step, nextEvent, h, idle]

theorem step_event (s : State) (ev : HostEvent) (rest : List HostEvent) (h : s.pending = ev :: rest) :
    step s = serve ev { s with pending := rest } := by
  simp [step, nextEvent, h]

theorem placeAt_cmd (p : Params) : placeAt p (offsetOf 0) = .cmd := rfl

/-- `CMD` is at no other offset (20_memory.md R41). -/
theorem placeAt_ne_cmd (p : Params) {ix : WordIndex} (h : ix ≠ 0) : placeAt p (offsetOf ix) ≠ .cmd := by
  have hix : offsetOf ix ≠ 0 := by
    intro h0
    have : ix.toNat = 0 := by simp only [offsetOf] at h0; omega
    exact h (BitVec.eq_of_toNat_eq (by simpa using this))
  generalize offsetOf ix = off at hix
  unfold placeAt
  split
  · rename_i r hr
    intro hc
    subst hc
    simp only [registerMap, List.lookup] at hr
    split at hr
    · rename_i h0; exact hix (by simpa using h0)
    · repeat' split at hr
      all_goals cases hr
  · split <;> simp

/-- From offset 0x50 on there is no named register (20_memory.md R41). -/
theorem placeAt_high (p : Params) {off : Nat} (h : 0x50 ≤ off) :
    placeAt p off =
      if secretBase ≤ off ∧ off < secretBase + p.secretMax then .secretW ((off - secretBase) / 4) else .reserved := by
  have hl : registerMap.lookup off = none := by
    simp only [registerMap, List.lookup]
    repeat' split
    all_goals first | rfl | (rename_i h0; simp only [beq_iff_eq] at h0; omega)
  simp only [placeAt, hl]

/-- A secret word lies whole inside the buffer: `SECRET_MAX` is a multiple of 4 (00_scope.md R6). -/
theorem placeAt_secretW {p : Params} {off k : Nat} (h : placeAt p off = .secretW k) : 4 * k + 3 < p.secretMax := by
  unfold placeAt at h
  split at h
  · rename_i r hr
    subst h
    simp only [registerMap, List.lookup] at hr
    repeat' split at hr
    all_goals cases hr
  · split at h
    · rename_i hoff
      cases h
      simp only [secretBase, Params.secretMax] at hoff ⊢
      omega
    · cases h

theorem hostWrite_cmd (w : Word) (s : State) : hostWrite 0 w s = runCommand w s := rfl

theorem hostWrite_store {ix : WordIndex} (h : ix ≠ 0) (w : Word) (s : State) :
    hostWrite ix w s = .next (storePlace w s (placeAt s.params (offsetOf ix))) := by
  have hp := placeAt_ne_cmd s.params h
  unfold hostWrite writePlace
  split
  · exact (hp ‹_›).elim
  · rfl

theorem runCommand_ok {w : Word} {i : Instr} (h : decode w = .ok i) (s : State) : runCommand w s = exec i s := by
  unfold runCommand; rw [h]

theorem runCommand_error {w : Word} {e : DecodeError} (h : decode w = .error e) (s : State) :
    runCommand w s = .next (illegalCommand s) := by
  unfold runCommand; rw [h]

/-- Everything a step can do (20_memory.md R42, R43, R50): stay idle, return a word, run a command, report an illegal word,
store a value, or reset. -/
theorem step_cases (s : State) :
    (s.pending = [] ∧ step s = .next s) ∨
    (∃ ix rest, s.pending = .read ix :: rest ∧
      step s = .next (pushReply (hostRead { s with pending := rest } ix) { s with pending := rest })) ∨
    (∃ w rest i, s.pending = .write 0 w :: rest ∧ decode w = .ok i ∧ step s = exec i { s with pending := rest }) ∨
    (∃ w rest e, s.pending = .write 0 w :: rest ∧ decode w = .error e ∧
      step s = .next (illegalCommand { s with pending := rest })) ∨
    (∃ ix w rest, s.pending = .write ix w :: rest ∧ ix ≠ 0 ∧
      step s = .next (storePlace w { s with pending := rest } (placeAt s.params (offsetOf ix)))) ∨
    (∃ rest, s.pending = .reset :: rest ∧ step s = .next (applyReset { s with pending := rest })) := by
  cases hp : s.pending with
  | nil => exact .inl ⟨rfl, step_idle s hp⟩
  | cons ev rest =>
    have hs := step_event s ev rest hp
    cases ev with
    | read ix => exact .inr (.inl ⟨ix, rest, rfl, hs⟩)
    | reset => exact .inr (.inr (.inr (.inr (.inr ⟨rest, rfl, hs⟩))))
    | write ix w =>
      by_cases hix : ix = 0
      · subst hix
        cases hd : decode w with
        | ok i => exact .inr (.inr (.inl ⟨w, rest, i, rfl, hd, hs.trans (runCommand_ok hd _)⟩))
        | error e =>
          exact .inr (.inr (.inr (.inl ⟨w, rest, e, rfl, hd, hs.trans (runCommand_error hd _)⟩)))
      · exact .inr (.inr (.inr (.inr (.inl ⟨ix, w, rest, rfl, hix, hs.trans (hostWrite_store hix w _)⟩))))

end Sys2Proof.Machine
end

