-- ==== Sys2Proof/Laws/Script.lean ====
section
/-! SUPPORT. Running a host script: one access at a time. -/

namespace Sys2Proof.Machine

/-- A run takes the front event of the stream. -/
theorem run_event {k : Nat} {s t : State} {ev : HostEvent} {rest : List HostEvent} (h : s.pending = ev :: rest)
    (hs : serve ev { s with pending := rest } = .next t) :
    Sys2Proof.core.run (k + 1) s = Sys2Proof.core.run k t := by
  have hstep : Sys2Proof.core.step s = .next t := (step_event s ev rest h).trans hs
  simp only [Host.Core.run, hstep]

/-- A run over a `wr` of a place that is not `CMD` stores there. -/
theorem run_store {k : Nat} {s : State} {off : Nat} {w : Word} {rest : List HostEvent} (pl : Place)
    (h : s.pending = Script.wr off w :: rest) (hpl : placeAt s.params (offsetOf (Script.ixOf off)) = pl)
    (hne : Script.ixOf off ≠ 0) :
    Sys2Proof.core.run (k + 1) s = Sys2Proof.core.run k (storePlace w { s with pending := rest } pl) := by
  refine run_event h ?_
  subst hpl
  exact hostWrite_store hne w _

/-- A run of one command is that command's meaning. -/
theorem run_cmd_last {s : State} {i : Instr} (h : s.pending = [Script.cmd i]) :
    Sys2Proof.core.run 1 s = exec i { s with pending := [] } := by
  have hd : decode (encode i) = .ok i := by cases i <;> rfl
  have hstep : Sys2Proof.core.step s = exec i { s with pending := [] } :=
    (step_event s _ [] h).trans ((hostWrite_cmd (encode i) _).trans (runCommand_ok hd _))
  cases he : exec i { s with pending := [] } <;> (simp only [Host.Core.run, hstep, he]; rfl)

/-- Byte `j` of a packed word of a script. -/
theorem byteOf_packWord (bs : List Byte) (k j : Nat) (hj : j < 4) :
    byteOf (Script.packWord bs k) j = bs.getD (4 * k + j) 0 := by
  have h := byteOf_packBytes (fun i => bs.getD (4 * k + i.val) 0) ⟨j, hj⟩
  simpa [Script.packWord] using h

/-- Where the `k`-th word of the secret stands, for every `k` inside the buffer. -/
theorem ixOf_secret {k : Nat} (h : k < 960) : (Script.ixOf (secretBase + 4 * k)).toNat = 64 + k := by
  simp only [Script.ixOf, secretBase, BitVec.toNat_ofNat]
  omega

end Sys2Proof.Machine
end

