-- ==== Sys2Proof/Tests/Slice0.lean ====
section
/-! SUPPORT. The model's own tests: well-formedness, decoding, single steps, the hash functions, and a witness for the
hypotheses of each statement. Expected values come from 95_test_vectors.md, whose section each test names. -/

open Sys2Proof Sys2Proof.Machine Sys2Proof.Safety

namespace Sys2Proof.Tests

-- One theorem after the other: many kernel evaluations at once exhaust the checker's threads.
set_option Elab.async false

/-! ### Helpers -/

/-- The secret of 95_test_vectors.md 1.1. -/
def docSecret : List Byte :=
  [0xd9, 0x1c, 0x96, 0x55, 0x83, 0x9d, 0xce, 0xc3, 0x96, 0x1b,
   0x12, 0xb9, 0xd8, 0xf9, 0xb6, 0x41, 0xb9, 0x5b, 0x02, 0x00]

/-- A buffer holding these bytes from byte 0 on. -/
def bufferOf (bs : List Byte) : Memory := ((List.range bs.length).zip bs).filter fun c => c.2 != 0

/-- The document secret at counter 1, with this digit count and algorithm. -/
def ready (d : BitVec 4) (a : BitVec 3) : State :=
  { State.reset with digits := d, alg := a, counter := 1, secret := bufferOf docSecret, secretLen := 20 }

/-- `ready` with this passcode supplied. -/
def withPass (cs : List Byte) (s : State) : State := { s with passIn := padBytes8 cs, passLen := BitVec.ofNat 8 cs.length }

/-- `ready` at the instant of 95_test_vectors.md 1.5. -/
def atInstant (k : Word) (cs : List Byte) : State := withPass cs { ready 6 1 with time := 1601510400, skew := k }

/-- `ready` with these arguments. -/
def withArgs (a b c d : Word) : State := { ready 6 1 with arg0 := a, arg1 := b, arg2 := c, arg3 := d }

/-- What `f` says of the state a command leaves. -/
def after {α : Type} (f : State → α) (i : Instr) (s : State) : Option α :=
  match exec i s with
  | .next t => some (f t)
  | .fault _ => none
  | .refused _ => none

/-- What `f` says of the state a step leaves. -/
def afterStep {α : Type} (f : State → α) (s : State) : Option α :=
  match step s with
  | .next t => some (f t)
  | .fault _ => none
  | .refused _ => none

/-- The words `STATUS`, `PASS_OUT0`, `PASS_OUT1`, `PASS_OUT_LEN` as the host reads them. -/
def results (s : State) : List Word := [hostRead s 1, hostRead s 16, hostRead s 17, hostRead s 18]

/-- The word `STATUS` as the host reads it. -/
def status (s : State) : Word := hostRead s 1

/-- The words `STATUS`, `CFG`, `PERIOD`, `SKEW` as the host reads them. -/
def config (s : State) : List Word := [hostRead s 1, hostRead s 2, hostRead s 3, hostRead s 4]

/-- The bytes of a numeral, most significant first. -/
def hexBytes (n x : Nat) : List Byte := (List.range n).map fun i => BitVec.ofNat 8 (x / 256 ^ (n - 1 - i))

/-! ### Well-formedness: each check refuses an ill-formed term -/

theorem test_upperZero_refuses : WellFormed.upperZero 0x00000101 = false := by decide
theorem test_opcodeListed_refuses :
    WellFormed.opcodeListed 0x00000000 = false ∧ WellFormed.opcodeListed 0x00000005 = false ∧
    WellFormed.opcodeListed 0x0000000F = false ∧ WellFormed.opcodeListed 0x00000015 = false := by decide
theorem test_commandWord_refuses :
    WellFormed.commandWord 0x80000001 = false ∧ WellFormed.commandWord 0x000000FF = false := by decide
theorem test_accessOffset_refuses :
    WellFormed.accessOffset 0x002 = false ∧ WellFormed.accessOffset 0x1000 = false ∧
    WellFormed.accessOffset 0xFFC = true := by decide
theorem test_instr_wellFormed : Instr.all.all WellFormed.instr = true := by decide

/-! ### Decoding: every word written out from 30_encoding.md R60 (`zero` in [31:8], `opcode` in [7:0]) and R61 -/

theorem test_decode_hotpGen : decode 0b00000000000000000000000000000001 = .ok .hotpGen := by decide
theorem test_decode_hotpVal : decode 0b00000000000000000000000000000010 = .ok .hotpVal := by decide
theorem test_decode_totpCtr : decode 0b00000000000000000000000000000011 = .ok .totpCtr := by decide
theorem test_decode_totpVal : decode 0b00000000000000000000000000000100 = .ok .totpVal := by decide
theorem test_decode_cfgSetDigits : decode 0b00000000000000000000000000010000 = .ok .cfgSetDigits := by decide
theorem test_decode_cfgSetAlg : decode 0b00000000000000000000000000010001 = .ok .cfgSetAlg := by decide
theorem test_decode_cfgSetPeriod : decode 0b00000000000000000000000000010010 = .ok .cfgSetPeriod := by decide
theorem test_decode_cfgSetSkew : decode 0b00000000000000000000000000010011 = .ok .cfgSetSkew := by decide
theorem test_decode_cfgNew : decode 0b00000000000000000000000000010100 = .ok .cfgNew := by decide
/-- 95_test_vectors.md 2.8 (b). -/
theorem test_decode_illegal :
    decode 0x000000FF = .error .unknownOpcode ∧ decode 0x00000101 = .error .upperBitsNotZero ∧
    decode 0xFFFFFFFF = .error .upperBitsNotZero := by decide

theorem test_decodeTableWord :
    decodeTableWord 32 0x14 = some .cfgNew ∧ decodeTableWord 8 0x03 = some .totpCtr ∧
    decodeTableWord 32 0x101 = none ∧ decodeTableWord 40 (2 ^ 32 + 1) = none := by decide
theorem test_withFetchWord_runs :
    afterStep config (State.withFetchWord { State.reset with arg0 := 8 } 32 0x10) = some [0, 8, 30, 1] := by decide +kernel

/-! ### The commands -/

/-- 95_test_vectors.md 1.2. -/
theorem test_hotpGen_six : after results .hotpGen (ready 6 1) = some [0, 0x36393835, 0x00003236, 6] := by decide +kernel
/-- 95_test_vectors.md 1.3. -/
theorem test_hotpGen_eight : after results .hotpGen (ready 8 1) = some [0, 0x38353833, 0x32363639, 8] := by
  decide +kernel
/-- 95_test_vectors.md 1.4. -/
theorem test_hotpVal_document :
    after status .hotpVal (withPass [0x35, 0x38, 0x39, 0x36, 0x36, 0x32] (ready 6 1)) = some 0x10 ∧
    after status .hotpVal (withPass [0x35, 0x38, 0x39, 0x36, 0x36, 0x31] (ready 6 1)) = some 0x00 := by decide +kernel
/-- 95_test_vectors.md 2.3: too short, and bytes 6 and 7 that are not looked at. -/
theorem test_hotpVal_length :
    after status .hotpVal (withPass [0x35, 0x38, 0x39, 0x36, 0x36] (ready 6 1)) = some 0x04 ∧
    after status .hotpVal
      { ready 6 1 with passIn := padBytes8 [0x35, 0x38, 0x39, 0x36, 0x36, 0x32, 0x58, 0x59], passLen := 6 } =
      some 0x10 := by decide +kernel
/-- 95_test_vectors.md 2.5: -31 with period 30 is step -2. -/
theorem test_totpCtr_negative :
    after State.counter .totpCtr { ready 6 1 with time := 0xFFFFFFFFFFFFFFE1, counter := 0x1111111122222222 } =
      some 0xFFFFFFFFFFFFFFFE := by decide +kernel
/-- 95_test_vectors.md 2.5: the smallest time with the largest period. -/
theorem test_totpCtr_extreme :
    after State.counter .totpCtr { ready 6 1 with time := 0x8000000000000000, period := 0xFFFFFFFF } =
      some 0xFFFFFFFF7FFFFFFF := by decide +kernel
/-- 95_test_vectors.md 1.5. -/
theorem test_totpVal_document :
    after status .totpVal (atInstant 1 [0x36, 0x36, 0x32, 0x30, 0x32, 0x34]) = some 0x10 ∧
    after status .totpVal (atInstant 1 [0x36, 0x36, 0x32, 0x30, 0x32, 0x33]) = some 0x00 := by decide +kernel
/-- 95_test_vectors.md 2.4: MD5 at time 120, where candidate 4 faults; a match wins, and otherwise the fault does. -/
theorem test_totpVal_fault :
    after status .totpVal (withPass [0x32, 0x37, 0x36, 0x34, 0x31, 0x32] { ready 6 4 with time := 120 }) = some 0x10 ∧
    after status .totpVal (withPass [0x30, 0x30, 0x30, 0x30, 0x30, 0x30] { ready 6 4 with time := 120 }) = some 0x07 := by
  decide +kernel
/-- 95_test_vectors.md 2.7 (a): accepted, and all 32 bits compared. -/
theorem test_cfgSetDigits :
    after config .cfgSetDigits (withArgs 8 0 0 0) = some [0, 0x108, 30, 1] ∧
    after config .cfgSetDigits (withArgs 0x106 0 0 0) = some [3, 0x106, 30, 1] := by decide +kernel
/-- 95_test_vectors.md 2.7 (a). -/
theorem test_cfgSetAlg :
    after config .cfgSetAlg (withArgs 4 0 0 0) = some [0, 0x406, 30, 1] ∧
    after config .cfgSetAlg (withArgs 0x101 0 0 0) = some [3, 0x106, 30, 1] := by decide +kernel
/-- 95_test_vectors.md 2.7 (a). -/
theorem test_cfgSetPeriod :
    after config .cfgSetPeriod (withArgs 0xFFFFFFFF 0 0 0) = some [0, 0x106, 0xFFFFFFFF, 1] ∧
    after config .cfgSetPeriod (withArgs 0 0 0 0) = some [3, 0x106, 30, 1] := by decide +kernel
/-- 95_test_vectors.md 2.7 (a). -/
theorem test_cfgSetSkew :
    after config .cfgSetSkew (withArgs 0 0 0 0) = some [0, 0x106, 30, 0] ∧
    after config .cfgSetSkew (withArgs 0xFFFFFFFF 0 0 0) = some [0, 0x106, 30, 0xFFFFFFFF] := by decide +kernel
/-- 95_test_vectors.md 2.7 (b): accepted, and each first bad argument. -/
theorem test_cfgNew :
    after config .cfgNew (withArgs 8 3 60 0) = some [0, 0x308, 60, 0] ∧
    after config .cfgNew (withArgs 7 9 0 1) = some [2, 0x106, 30, 1] ∧
    after config .cfgNew (withArgs 6 9 0 1) = some [2, 0x106, 30, 1] ∧
    after config .cfgNew (withArgs 6 1 0 1) = some [3, 0x106, 30, 1] := by decide +kernel
/-- 95_test_vectors.md 2.8 (b): the results are cleared. -/
theorem test_illegal_word :
    afterStep results
      { ready 6 1 with passOut := padBytes8 [0x35], passOutLen := 6, pending := [.write 0 0x80000001] } =
      some [5, 0, 0, 0] := by decide +kernel
/-- 95_test_vectors.md 2.8 (a): from reset, and the length tested before the configuration. -/
theorem test_after_reset :
    after status .hotpGen State.reset = some 2 ∧ after status .hotpVal State.reset = some 2 ∧
    after status .hotpVal { State.reset with passLen := 6 } = some 4 ∧ after status .totpCtr State.reset = some 0 := by
  decide +kernel

/-! ### The host port (95_test_vectors.md 2.8 (c)) -/

theorem test_read_writeOnly_and_reserved :
    hostRead (ready 6 1) 0 = 0 ∧ hostRead (ready 6 1) 0x040 = 0 ∧ hostRead (ready 6 1) 0x014 = 0 ∧
    hostRead (ready 6 1) 0x3FF = 0 := by decide +kernel
theorem test_write_readOnly :
    afterStep config { ready 6 1 with pending := [.write 2 0xFFFFFFFF] } = some [0, 0x106, 30, 1] := by decide +kernel
theorem test_write_narrow :
    afterStep (fun t => hostRead t 15) { ready 6 1 with pending := [.write 15 0x00001234] } = some 0x34 ∧
    afterStep (fun t => hostRead t 19) { ready 6 1 with pending := [.write 19 0x12345678] } = some 0x5678 := by
  decide +kernel
/-- 95_test_vectors.md 1.1: the first word of the secret; writing 0 takes the bytes out of the list again. -/
theorem test_write_secret :
    afterStep State.secret { State.reset with pending := [.write 0x040 0x55961CD9] } =
      some [(0, 0xd9), (1, 0x1c), (2, 0x96), (3, 0x55)] ∧
    afterStep State.secret { ready 6 1 with secret := [(0, 0xd9), (3, 0x55)], pending := [.write 0x040 0] } =
      some [] := by decide +kernel

/-! ### The shared functions (95_test_vectors.md 2.1) and the hash functions (2.9) -/

theorem test_dynamicTruncate :
    dynamicTruncate (hexBytes 20 0xfffffffffffffffffffffffffffffffffffffff0) = some 0x7fffffff ∧
    dynamicTruncate (hexBytes 16 0x000102030405060708090a0b0c0d0e0c) = some 0x0c0d0e0c ∧
    dynamicTruncate (hexBytes 16 0x000102030405060708090a0b0c0d0e0d) = none := by decide +kernel
theorem test_formatCode :
    formatCode 1234 .six = [0x30, 0x30, 0x31, 0x32, 0x33, 0x34] ∧
    formatCode 815478 .eight = [0x30, 0x30, 0x38, 0x31, 0x35, 0x34, 0x37, 0x38] := by decide +kernel
theorem test_sha1 :
    digest .sha1 [0x61, 0x62, 0x63] = hexBytes 20 0xa9993e364706816aba3e25717850c26c9cd0d89d ∧
    digest .sha1 (List.replicate 56 0) = hexBytes 20 0x9438e360f578e12c0e0e8ed28e2c125c1cefee16 := by decide +kernel
theorem test_sha256 :
    digest .sha256 [0x61, 0x62, 0x63] =
      hexBytes 32 0xba7816bf8f01cfea414140de5dae2223b00361a396177a9cb410ff61f20015ad ∧
    digest .sha256 (List.replicate 56 0) =
      hexBytes 32 0xd4817aa5497628e7c77e6b606107042bbba3130888c5f47a375e6179be789fbb := by decide +kernel
theorem test_sha512 :
    digest .sha512 [0x61, 0x62, 0x63] =
      hexBytes 64 (0xddaf35a193617abacc417349ae20413112e6fa4e89a97ea20a9eeee64b55d39a * 256 ^ 32 +
        0x2192992a274fc1a836ba3c23a3feebbd454d4423643ce80e2a9ac94fa54ca49f) ∧
    digest .sha512 (List.replicate 112 0) =
      hexBytes 64 (0x2be2e788c8a8adeaa9c89a7f78904cacea6e39297d75e0573a73c756234534d6 * 256 ^ 32 +
        0x627ab4156b48a6657b29ab8beb73334040ad39ead81446bb09c70704ec707952) := by decide +kernel
theorem test_md5 :
    digest .md5 [0x61, 0x62, 0x63] = hexBytes 16 0x900150983cd24fb0d6963f7d28e17f72 ∧
    digest .md5 (List.replicate 56 0) = hexBytes 16 0xe3c4dd21a9171fd39d208efa09bf7883 := by decide +kernel
/-- 48_hmac_hash.md R145: the constants of SHA-512 are the first 64 bits of the fractional parts of the square roots of the
first 8 primes and of the cube roots of the first 80, here by comparing powers. -/
theorem test_sha512_constants :
    (let primes := ((List.range 410).drop 2).filter fun p => (List.range 21).all fun d => d < 2 || p ≤ d || p % d != 0
    let isRoot (e p : Nat) (x : DWord) := (List.range 20).any fun n =>
      (n * 2 ^ 64 + x.toNat) ^ e ≤ p * 2 ^ (64 * e) && p * 2 ^ (64 * e) < (n * 2 ^ 64 + x.toNat + 1) ^ e
    primes.length == 80 && sha512K.length == 80 && (primes.zip sha512K).all (fun c => isRoot 3 c.1 c.2) &&
      (primes.zip sha512Init.words).all fun c => isRoot 2 c.1 c.2) = true := by decide +kernel
/-- 48_hmac_hash.md R144: those of SHA-256 are the first 32 bits of the same numbers, of the first 64 primes for `K`. -/
theorem test_sha256_constants :
    sha256Init.words = sha512Init.words.map (fun x => x.extractLsb' 32 32) ∧
    sha256K = (sha512K.take 64).map (fun x => x.extractLsb' 32 32) := by decide +kernel
/-- A key longer than a block, and an empty key. -/
theorem test_hmac :
    hmac .sha1 ((List.range 200).map (BitVec.ofNat 8)) (be64 1) =
      hexBytes 20 0x8baad5e54ea51113298d5e93783d03dc0f019425 ∧
    hmac .md5 [] (be64 1) = hexBytes 16 0x59c9e06eb64b2666df65bdb93e8656db := by decide +kernel

/-! ### Host scripts (95_test_vectors.md 1.1 and section 3) -/

theorem test_script_secret :
    Script.secret docSecret =
      [.write 0x40 0x55961CD9, .write 0x41 0xC3CE9D83, .write 0x42 0xB9121B96, .write 0x43 0x41B6F9D8,
       .write 0x44 0x00025BB9, .write 0x13 20] := by decide +kernel
theorem test_script_passcode :
    Script.passcode [0x35, 0x38, 0x39, 0x36, 0x36] = [.write 13 0x36393835, .write 14 0x36, .write 15 5] := by
  decide +kernel

/-! ### A witness for the hypotheses of each statement -/

theorem witness_StepRunsTheCommandWritten (i : Instr) :
    ∃ (s : State) (w : Word) (rest : List HostEvent), s.pending = .write 0 w :: rest ∧ decode w = .ok i :=
  ⟨{ State.reset with pending := [.write 0 (encode i), .reset] }, encode i, [.reset], rfl, by cases i <;> rfl⟩

/-- Both clauses, at their boundary values. -/
theorem witness_IllegalWordOnlyReports :
    ∀ w ∈ ([0x00000101, 0x80000001, 0x00000000, 0x00000005, 0x0000000F, 0x00000015, 0x000000FF] : List Word),
      (∃ (s : State) (rest : List HostEvent), s.pending = .write 0 w :: rest) ∧
      (2 ^ 8 ≤ w.toNat ∨ w.toNat % 2 ^ 8 ∉ [0x01, 0x02, 0x03, 0x04, 0x10, 0x11, 0x12, 0x13, 0x14]) := by
  intro w hw
  refine ⟨⟨{ State.reset with pending := [.write 0 w] }, [], rfl⟩, ?_⟩
  simp only [List.mem_cons, List.not_mem_nil, or_false] at hw
  rcases hw with rfl | rfl | rfl | rfl | rfl | rfl | rfl <;> decide

theorem witness_ReadChangesNoRegister :
    ∃ (s : State) (ix : WordIndex) (rest : List HostEvent), s.pending = .read ix :: rest :=
  ⟨{ ready 6 1 with pending := [.read 1, .read 16] }, 1, [.read 16], rfl⟩

/-- The first and the last offset of the last clause. -/
theorem witness_ReadsFollowTheAddressMap : 20 ≤ (20 : WordIndex).toNat ∧ 20 ≤ (0x3FF : WordIndex).toNat := by decide

/-- The reserved clauses at their ends: offsets 0x050 and 0x0FC, and with `SECRET_MAX` 256 the offsets 0x200 and 0xFFC. -/
theorem witness_WritesFollowTheAddressMap :
    (20 ≤ (20 : WordIndex).toNat ∧ (20 : WordIndex).toNat < 64) ∧ (20 ≤ (63 : WordIndex).toNat ∧ (63 : WordIndex).toNat < 64) ∧
    0x100 + State.reset.params.secretMax ≤ 4 * (0x80 : WordIndex).toNat ∧
    0x100 + State.reset.params.secretMax ≤ 4 * (0x3FF : WordIndex).toNat := by decide

/-- The first and the last word of the buffer, of the suggested size and of the largest. -/
theorem witness_SecretWordWriteStoresItsBytes :
    (∀ ix ∈ ([0x40, 0x7F] : List WordIndex), 64 ≤ ix.toNat ∧ 4 * ix.toNat < 0x100 + (ready 6 1).params.secretMax) ∧
    4 * (0x3FF : WordIndex).toNat < 0x100 + Params.secretMax ⟨959⟩ ∧ Memory.wf (ready 6 1).secret = true := by
  decide +kernel

theorem witness_WritesAreIdempotent :
    (1 : WordIndex) ≠ 0 ∧ (0x3FF : WordIndex) ≠ 0 ∧ Memory.wf (ready 6 1).secret = true := by decide +kernel

theorem witness_OperandWritesKeepResultsAndConfig :
    ∃ (s : State) (ix : WordIndex) (w : Word) (rest : List HostEvent), ix ≠ 0 ∧ s.pending = .write ix w :: rest :=
  ⟨{ ready 6 1 with pending := [.write 0x3FF 1] }, 0x3FF, 1, [], by decide, rfl⟩

/-- A read of the secret, a write of it, and a reset. -/
theorem witness_SecretIsNotReadable :
    ∀ ev ∈ [HostEvent.read 0x40, .write 0x40 7, .reset],
      (∃ (s : State) (rest : List HostEvent), s.pending = ev :: rest) ∧ ∀ w, ev ≠ .write 0 w := by
  intro ev hev
  refine ⟨⟨{ ready 6 1 with pending := [ev] }, [], rfl⟩, ?_⟩
  simp only [List.mem_cons, List.not_mem_nil, or_false] at hev
  rcases hev with rfl | rfl | rfl <;> intro w <;> simp

theorem witness_IdleAndResetSteps :
    (∃ s : State, s.pending = []) ∧ ∃ (s : State) (rest : List HostEvent), s.pending = .reset :: rest :=
  ⟨⟨ready 6 1, rfl⟩, { ready 6 1 with pending := [.reset, .read 1] }, [.read 1], rfl⟩

theorem witness_StepKeepsTheInvariant : MachineInv (ready 6 1) :=
  ⟨by decide +kernel, by decide +kernel, by decide +kernel, by decide +kernel⟩

/-- Success, illegal configuration, illegal secret, and the digest without a window (95_test_vectors.md 2.4). -/
theorem witness_HotpGenRule :
    (∃ (s : State) (alg : HashAlg) (d : DigitCount) (p : Word), hasConfig s alg d ∧ secretLegal s ∧
      dynamicTruncate (hmac alg (Memory.readBytes s.secret 0 s.secretLen.toNat) (be64 s.counter)) = some p) ∧
    (∃ s : State, ¬ configLegal s) ∧ (∃ s : State, configLegal s ∧ ¬ secretLegal s) ∧
    (∃ (s : State) (alg : HashAlg) (d : DigitCount), hasConfig s alg d ∧ secretLegal s ∧
      dynamicTruncate (hmac alg (Memory.readBytes s.secret 0 s.secretLen.toNat) (be64 s.counter)) = none) :=
  ⟨⟨ready 6 1, .sha1, .six, 0x31fbdcde, by decide +kernel, by decide +kernel, by decide +kernel⟩,
    ⟨State.reset, by decide +kernel⟩, ⟨{ ready 6 1 with secretLen := 257 }, by decide +kernel, by decide +kernel⟩,
    { ready 6 4 with counter := 4 }, .md5, .six, by decide +kernel, by decide +kernel, by decide +kernel⟩

/-- The three errors before the digest, the fault, a match and a mismatch. -/
theorem witness_HotpValRule :
    ¬ lengthMatches (ready 6 1) ∧ (lengthMatches State.reset ∧ ¬ configLegal State.reset) ∧
    (let s := withPass [0x35, 0x38, 0x39, 0x36, 0x36, 0x32] { ready 6 1 with secretLen := 0 };
      lengthMatches s ∧ configLegal s ∧ ¬ secretLegal s) ∧
    (let s := withPass [0x35, 0x38, 0x39, 0x36, 0x36, 0x32] { ready 6 4 with counter := 4 };
      hasConfig s .md5 .six ∧ lengthMatches s ∧ secretLegal s ∧ hotp .md5 .six (secretKey s) s.counter = none) ∧
    (let s := withPass [0x35, 0x38, 0x39, 0x36, 0x36, 0x32] (ready 6 1);
      hasConfig s .sha1 .six ∧ lengthMatches s ∧ secretLegal s ∧
      hotp .sha1 .six (secretKey s) s.counter = some [0x35, 0x38, 0x39, 0x36, 0x36, 0x32] ∧
      supplies s [0x35, 0x38, 0x39, 0x36, 0x36, 0x32] ∧ ¬ supplies s [0x35, 0x38, 0x39, 0x36, 0x36, 0x31]) := by
  decide +kernel

/-- A window, the last 16-byte window, the first 16-byte fault, and a digest of 19 bytes. -/
theorem witness_DynamicTruncationRule :
    hexBytes 16 0x000102030405060708090a0b0c0d0e0c ≠ [] ∧
    dynamicTruncate (hexBytes 16 0x000102030405060708090a0b0c0d0e0c) = some 0x0c0d0e0c ∧
    (hexBytes 16 0x000102030405060708090a0b0c0d0e0d).length = 16 ∧
    19 ≤ (hexBytes 19 0x0102030405060708090a0b0c0d0e0f10111fff).length := by decide +kernel

theorem witness_FormatIsTheDecimalNumeral :
    0 < 10 ^ DigitCount.six.toNat ∧ 999999 < 10 ^ DigitCount.six.toNat ∧ 99999999 < 10 ^ DigitCount.eight.toNat := by decide

theorem witness_SixDigitsEndTheEightDigits :
    hotp .sha1 .eight docSecret 1 = some [0x33, 0x38, 0x35, 0x38, 0x39, 0x36, 0x36, 0x32] := by decide +kernel

theorem witness_GeneratedPasscodeValidates : ∃ s t : State, exec .hotpGen s = .next t ∧ t.err = 0 :=
  ⟨ready 6 1, _, rfl, by decide +kernel⟩

/-- A buffer that differs beyond the secret proper only. -/
theorem witness_OnlyTheSecretProperMatters (i : Instr) :
    ∃ (s t : State) (m : Memory), m ≠ s.secret ∧ (∀ a < s.secretLen.toNat, Memory.read m a = Memory.read s.secret a) ∧
      exec i s = .next t := by
  obtain ⟨t, ht, -⟩ := exec_result i (ready 6 1)
  exact ⟨ready 6 1, t, bufferOf (docSecret ++ [7]), by decide +kernel, by decide +kernel, ht⟩

theorem witness_HotpGenReadsOnlyItsOperands :
    ∃ s s' t t' : State, s' ≠ s ∧ s'.digits = s.digits ∧ s'.alg = s.alg ∧ s'.counter = s.counter ∧
      s'.secretLen = s.secretLen ∧ s'.params = s.params ∧
      (∀ a < s.secretLen.toNat, Memory.read s'.secret a = Memory.read s.secret a) ∧
      exec .hotpGen s = .next t ∧ exec .hotpGen s' = .next t' :=
  ⟨ready 6 1, { ready 6 1 with time := 5, skew := 9 }, _, _, by decide +kernel, rfl, rfl, rfl, rfl, rfl, fun _ _ => rfl,
    rfl, rfl⟩

theorem witness_CounterFromTimeIsTheFloor : (1 : Word) ≠ 0 ∧ (0xFFFFFFFF : Word) ≠ 0 := by decide

theorem witness_TotpCtrRule : (∃ s : State, s.period = 0) ∧ ∃ s : State, s.period ≠ 0 :=
  ⟨⟨{ State.reset with period := 0 }, rfl⟩, State.reset, by decide⟩

theorem witness_WindowLoopInAnyOrder : ([1, 2] : List DWord).Perm [2, 1] := .swap 2 1 []

/-- The errors in their order, with a state for each. -/
theorem witness_TotpValRule_errors :
    (∃ s : State, s.period = 0) ∧ (∃ s : State, s.period ≠ 0 ∧ ¬ lengthMatches s) ∧
    (∃ s : State, s.period ≠ 0 ∧ lengthMatches s ∧ ¬ configLegal s) ∧
    (∃ s : State, s.period ≠ 0 ∧ lengthMatches s ∧ configLegal s ∧ ¬ secretLegal s) :=
  ⟨⟨{ State.reset with period := 0 }, rfl⟩, ⟨ready 6 1, by decide +kernel⟩, ⟨State.reset, by decide +kernel⟩,
    { ready 6 1 with passLen := 6, secretLen := 0 }, by decide +kernel⟩

/-- The hypotheses of the three results: a candidate that matches, and a supplied passcode with a sign that no passcode of
a window without fault has. The candidate that faults is that of `witness_HotpValRule`, counter 4 with MD5, and the window
of skew 0 has no other. -/
theorem witness_TotpValRule_match :
    let s := atInstant 1 [0x36, 0x36, 0x32, 0x30, 0x32, 0x34]
    s.period ≠ 0 ∧ lengthMatches s ∧ hasConfig s .sha1 .six ∧ secretLegal s ∧
    isFloor (sint64 s.time) s.period.toNat (sint64 53383680) ∧
    ∃ c r, inWindow 53383680 s.skew.toNat c ∧ hotp .sha1 .six (secretKey s) c = some r ∧ supplies s r :=
  ⟨by decide +kernel, by decide +kernel, by decide +kernel, by decide +kernel, by decide +kernel, 53383680,
    [0x36, 0x36, 0x32, 0x30, 0x32, 0x34], ⟨0, by decide, by decide, by decide⟩, by decide +kernel, by decide +kernel⟩

theorem witness_inWindow_zero (c0 c : DWord) (h : inWindow c0 0 c) : c = c0 := by
  obtain ⟨j, h1, h2, rfl⟩ := h
  have hj : j = 0 := by omega
  subst hj
  simp

theorem witness_TotpValRule_noMatch :
    let s := atInstant 0 [0x36, 0x36, 0x32, 0x30, 0x32, 0x33]
    s.period ≠ 0 ∧ lengthMatches s ∧ hasConfig s .sha1 .six ∧ secretLegal s ∧
    isFloor (sint64 s.time) s.period.toNat (sint64 53383680) ∧
    (∀ c r, inWindow 53383680 s.skew.toNat c → hotp .sha1 .six (secretKey s) c = some r → ¬ supplies s r) ∧
    (∀ c, inWindow 53383680 s.skew.toNat c → hotp .sha1 .six (secretKey s) c ≠ none) := by
  intro s
  have hh : hotp .sha1 .six (secretKey s) 53383680 = some [0x36, 0x36, 0x32, 0x30, 0x32, 0x34] := by decide +kernel
  refine ⟨by decide +kernel, by decide +kernel, by decide +kernel, by decide +kernel, by decide +kernel, ?_, ?_⟩
  · intro c r hc hr
    have hc := witness_inWindow_zero _ _ hc
    subst hc
    rw [hh] at hr
    cases hr
    decide +kernel
  · intro c hc
    have hc := witness_inWindow_zero _ _ hc
    subst hc
    rw [hh]
    exact Option.some_ne_none _

theorem witness_TotpValRule_fault :
    let s := withPass [0x32, 0x37, 0x36, 0x34, 0x31, 0x32] { ready 6 4 with time := 120, skew := 0 }
    s.period ≠ 0 ∧ lengthMatches s ∧ hasConfig s .md5 .six ∧ secretLegal s ∧
    isFloor (sint64 s.time) s.period.toNat (sint64 4) ∧
    (∀ c r, inWindow 4 s.skew.toNat c → hotp .md5 .six (secretKey s) c = some r → ¬ supplies s r) ∧
    ∃ c, inWindow 4 s.skew.toNat c ∧ hotp .md5 .six (secretKey s) c = none := by
  intro s
  have hh : hotp .md5 .six (secretKey s) 4 = none := by decide +kernel
  refine ⟨by decide +kernel, by decide +kernel, by decide +kernel, by decide +kernel, by decide +kernel, ?_, 4,
    ⟨0, by decide, by decide, by decide⟩, hh⟩
  intro c r hc hr
  have hc := witness_inWindow_zero _ _ hc
  subst hc
  rw [hh] at hr
  cases hr

/-- The two ends of the window with skew 1: the passcodes of `c0-1` and of `c0+1` (95_test_vectors.md 2.6 (a)). -/
theorem witness_TotpValAcceptsTheWholeWindow :
    (let s := atInstant 1 [0x38, 0x37, 0x38, 0x36, 0x38, 0x30];
      s.period ≠ 0 ∧ hasConfig s .sha1 .six ∧ secretLegal s ∧ lengthMatches s ∧
      (-(s.skew.toNat : Int) ≤ -1 ∧ (-1 : Int) ≤ s.skew.toNat) ∧
      hotp .sha1 .six (secretKey s) (counterFromTime (sint64 s.time) s.period.toNat + BitVec.ofInt 64 (-1)) =
        some [0x38, 0x37, 0x38, 0x36, 0x38, 0x30] ∧
      supplies s [0x38, 0x37, 0x38, 0x36, 0x38, 0x30]) ∧
    (let s := atInstant 1 [0x35, 0x33, 0x32, 0x34, 0x39, 0x32];
      (-(s.skew.toNat : Int) ≤ 1 ∧ (1 : Int) ≤ s.skew.toNat) ∧
      hotp .sha1 .six (secretKey s) (counterFromTime (sint64 s.time) s.period.toNat + BitVec.ofInt 64 1) =
        some [0x35, 0x33, 0x32, 0x34, 0x39, 0x32] ∧
      supplies s [0x35, 0x33, 0x32, 0x34, 0x39, 0x32]) := by decide +kernel

/-- Times -1 and -30 lie in the same step. -/
theorem witness_OneTimeStepOneResult :
    let s := { ready 6 1 with time := 0xFFFFFFFFFFFFFFFF }
    isFloor (sint64 s.time) s.period.toNat (-1) ∧ isFloor (sint64 0xFFFFFFFFFFFFFFE2) s.period.toNat (-1) ∧
    ∃ t, exec .totpVal s = .next t :=
  ⟨by decide +kernel, by decide +kernel, (exec_result _ _).imp fun _ h => h.1⟩

theorem witness_SkewZeroIsPlainHotp :
    let s := { ready 6 1 with skew := 0 }
    s.skew = 0 ∧ s.period ≠ 0 ∧
    ∃ t, exec .hotpVal { s with counter := counterFromTime (sint64 s.time) s.period.toNat } = .next t :=
  ⟨rfl, by decide +kernel, (exec_result _ _).imp fun _ h => h.1⟩

/-- The clauses of the setters at their boundary values. -/
theorem witness_CfgSetRules :
    (withArgs 6 0 0 0).arg0 = 6 ∧ (withArgs 8 0 0 0).arg0 = 8 ∧
    ((withArgs 7 0 0 0).arg0 ≠ 6 ∧ (withArgs 7 0 0 0).arg0 ≠ 8) ∧
    (1 ≤ (1 : BitVec 3).toNat ∧ (1 : BitVec 3).toNat ≤ 4 ∧ (withArgs 1 0 0 0).arg0.toNat = (1 : BitVec 3).toNat) ∧
    (1 ≤ (4 : BitVec 3).toNat ∧ (4 : BitVec 3).toNat ≤ 4 ∧ (withArgs 4 0 0 0).arg0.toNat = (4 : BitVec 3).toNat) ∧
    ((withArgs 0 0 0 0).arg0.toNat < 1 ∧ 4 < (withArgs 5 0 0 0).arg0.toNat) ∧
    ((withArgs 1 0 0 0).arg0 ≠ 0 ∧ (withArgs 0 0 0 0).arg0 = 0) := by decide +kernel

/-- The clauses of `CFG_NEW`: bad digits, bad algorithm on either side, bad period, and a legal configuration. -/
theorem witness_CfgNewRule :
    ((withArgs 7 9 0 1).arg0 ≠ 6 ∧ (withArgs 7 9 0 1).arg0 ≠ 8) ∧
    ((withArgs 6 0 0 1).arg0 = 6 ∧ (withArgs 6 0 0 1).arg1.toNat < 1 ∧ 4 < (withArgs 6 5 0 1).arg1.toNat) ∧
    ((withArgs 8 4 0 1).arg0 = 8 ∧ 1 ≤ (withArgs 8 4 0 1).arg1.toNat ∧ (withArgs 8 4 0 1).arg1.toNat ≤ 4 ∧
      (withArgs 8 4 0 1).arg2 = 0) ∧
    ((withArgs 8 4 1 0).arg0.toNat = (8 : BitVec 4).toNat ∧ (withArgs 8 4 1 0).arg1.toNat = (4 : BitVec 3).toNat ∧
      (withArgs 8 4 1 0).arg2 ≠ 0) := by decide +kernel

/-- Both clauses: a command that fails, and for each command one that ends without an error where it can. -/
theorem witness_FailedCommandChangesOnlyResults :
    ∃ s t : State, exec .hotpGen s = .next t ∧ t.err ≠ 0 := ⟨State.reset, _, rfl, by decide +kernel⟩

/-- The hypothesis of the statements about every command, for each of them. -/
theorem witness_CodesOfEachCommand (i : Instr) : ∃ s t : State, exec i s = .next t :=
  ⟨ready 6 1, (exec_result i _).imp fun _ h => h.1⟩

theorem witness_CodesOfEachCommand_results :
    (∃ t : State, exec .hotpVal (withPass [0x35, 0x38, 0x39, 0x36, 0x36, 0x32] (ready 6 1)) = .next t ∧ t.matchFlag = true) ∧
    ∃ t : State, exec .hotpGen (ready 6 1) = .next t ∧ t.passOutLen ≠ 0 :=
  ⟨⟨_, rfl, by decide +kernel⟩, _, rfl, by decide +kernel⟩

theorem witness_EngineCommandsFrame :
    ∀ i ∈ [Instr.hotpGen, .hotpVal, .totpCtr, .totpVal], ∃ s t : State, exec i s = .next t :=
  fun i _ => witness_CodesOfEachCommand i

theorem witness_ConfigCommandsFrame :
    ∀ i ∈ [Instr.cfgSetDigits, .cfgSetAlg, .cfgSetPeriod, .cfgSetSkew, .cfgNew], ∃ s t : State, exec i s = .next t :=
  fun i _ => witness_CodesOfEachCommand i

/-- Keys of 64 and 65 bytes for a block of 64, and of 128 and 129 bytes for a block of 128. -/
theorem witness_HmacKeyRule :
    64 < (List.replicate 65 (1 : Byte)).length ∧ (List.replicate 20 (1 : Byte)).length + 44 ≤ 64 ∧
    (List.replicate 64 (1 : Byte)).length = 64 ∧ 128 < (List.replicate 129 (1 : Byte)).length ∧
    (List.replicate 128 (1 : Byte)).length = 128 := by decide

theorem witness_PaddingFillsWholeBlocks : 0 < 1 ∧ 0 < 64 ∧ 0 < 128 := by decide

/-- A secret that ends inside a word, the empty one, and one of `SECRET_MAX` bytes. -/
theorem witness_SecretScriptLoadsTheKey :
    ∀ bs ∈ [docSecret ++ [1], [], List.replicate 256 (1 : Byte)],
      bs.length ≤ (ready 6 1).params.secretMax ∧ Memory.wf (ready 6 1).secret = true ∧
      ∃ s : State, s.params = (ready 6 1).params ∧ s.secret = (ready 6 1).secret ∧ s.pending = Script.secret bs := by
  intro bs hbs
  refine ⟨?_, by decide +kernel, { ready 6 1 with pending := Script.secret bs }, rfl, rfl, rfl⟩
  revert bs
  decide +kernel

theorem witness_scripts (es : List HostEvent) : ∃ s : State, s.pending = es := ⟨{ ready 6 1 with pending := es }, rfl⟩

theorem witness_ConfigScriptConfigures :
    (30 : Word) ≠ 0 ∧ ∃ s : State,
      s.pending = Script.config (BitVec.ofNat 32 DigitCount.eight.toNat) (BitVec.ofNat 32 HashAlg.md5.number) 30 1 :=
  ⟨by decide, witness_scripts _⟩

theorem witness_TotpGenScriptIsHotpAtTheTimeCounter :
    let s := { ready 6 1 with time := 1601510400, pending := Script.totpGen }
    s.period ≠ 0 ∧ s.pending = Script.totpGen ∧ isFloor (sint64 s.time) s.period.toNat (sint64 53383680) :=
  ⟨by decide +kernel, rfl, by decide +kernel⟩

/-- The family `EncodeLegal`, for one command. -/
theorem test_encodeLegal_cfgNew : Sys2Proof.Laws.EncodeLegal.Statement .cfgNew := Sys2Proof.Laws.EncodeLegal.cfgNew

end Sys2Proof.Tests
end

section
/-! The reset state (70_reset_and_hazards.md R200, 10_state.md R30): the registers hold their tabulated constants by
definition, and the three buffers read 0 at every byte. -/

namespace Sys2Proof.Proofs

open Sys2Proof Sys2Proof.Machine

/-- Every byte of the buffer that `PASS_IN` and `PASS_OUT` hold after reset and after `ClearResults`. -/
@[simp] theorem zeroBytes8_getElem (i : Fin 8) : zeroBytes8[i] = 0 :=
  Vector.getElem_replicate i.isLt

/-- Settles O13: the `PASS_IN` and `PASS_OUT` bytes by `zeroBytes8_getElem`, the secret by `Memory.read_nil`, and each
remaining register by its definition. -/
theorem resetValues : Obligations.ResetValues := by
  unfold Obligations.ResetValues
  have hsecret : ∀ a, Memory.read State.reset.secret a = 0 := Memory.read_nil
  exact ⟨rfl, rfl, rfl, rfl, rfl, rfl, rfl, rfl, rfl, rfl, zeroBytes8_getElem, rfl, hsecret, rfl,
    zeroBytes8_getElem, rfl, rfl, rfl⟩

end Sys2Proof.Proofs
end

section
/-! Command words (30_encoding.md R60 to R62): a word is its two fields, the opcode table holds the encoder's word of each
command, and so the decoder is the inverse of the encoder and accepts exactly the legal words. -/

namespace Sys2Proof.Proofs

open Sys2Proof Sys2Proof.Laws

/-- The number of a word, by the two fields of format N (30_encoding.md R60). -/
theorem toNat_eq_fields (w : Word) : w.toNat = (opcodeField w).toNat + 2 ^ 8 * (zeroField w).toNat := by
  simp only [opcodeField, zeroField, BitVec.extractLsb'_toNat, Nat.shiftRight_eq_div_pow]
  omega

/-- A word whose bits [31:8] are zero is its opcode byte. -/
theorem toNat_eq_opcodeField {w : Word} (h : zeroField w = 0) : w.toNat = (opcodeField w).toNat := by
  simp [toNat_eq_fields w, h]

theorem decode_eq_ok_iff {w : Word} {i : Instr} :
    decode w = .ok i ↔ zeroField w = 0 ∧ opcodeTable.lookup (opcodeField w) = some i := by
  unfold decode
  split
  case isTrue hz =>
    cases opcodeTable.lookup (opcodeField w) <;> simp [hz]
  case isFalse hz => exact iff_of_false nofun fun ⟨hzero, _⟩ => hz hzero

/-- Each row of the opcode table holds the number of the encoder's word. -/
theorem toNat_encode_of_mem_opcodeTable : ∀ row ∈ opcodeTable, (encode row.2).toNat = row.1.toNat := by decide

theorem toNat_encode_of_lookup {op : Byte} {i : Instr} (h : opcodeTable.lookup op = some i) :
    (encode i).toNat = op.toNat := by
  obtain ⟨before, after, htable, -⟩ := List.lookup_eq_some_iff.mp h
  exact toNat_encode_of_mem_opcodeTable (op, i) (by simp [htable])

@[simp] theorem decode_encode (i : Instr) : decode (encode i) = .ok i := by cases i <;> rfl

/-- The encoder's word is the only word of a command. -/
theorem eq_encode_of_decode {w : Word} {i : Instr} (h : decode w = .ok i) : w = encode i := by
  obtain ⟨hzero, hlookup⟩ := decode_eq_ok_iff.mp h
  exact BitVec.eq_of_toNat_eq ((toNat_eq_opcodeField hzero).trans (toNat_encode_of_lookup hlookup).symm)

theorem decode_eq_ok_iff_eq_encode {w : Word} {i : Instr} : decode w = .ok i ↔ w = encode i :=
  ⟨eq_encode_of_decode, fun h => h ▸ decode_encode i⟩

/-- The words of all commands are legal, from the law of each command. -/
theorem commandWord_encode (i : Instr) : WellFormed.commandWord (encode i) = true := by
  have legal : EncodeLegal.Statement i := by
    cases i
    exacts [EncodeLegal.hotpGen, EncodeLegal.hotpVal, EncodeLegal.totpCtr, EncodeLegal.totpVal, EncodeLegal.cfgSetDigits,
      EncodeLegal.cfgSetAlg, EncodeLegal.cfgSetPeriod, EncodeLegal.cfgSetSkew, EncodeLegal.cfgNew]
  exact legal.2

/-- The two clauses of 30_encoding.md R62, as ranges of the opcode byte. -/
theorem commandWord_eq_true_iff {w : Word} :
    WellFormed.commandWord w = true ↔
      zeroField w = 0 ∧
        ((0x01 ≤ (opcodeField w).toNat ∧ (opcodeField w).toNat ≤ 0x04) ∨
          (0x10 ≤ (opcodeField w).toNat ∧ (opcodeField w).toNat ≤ 0x14)) := by
  simp only [WellFormed.commandWord, WellFormed.upperZero, WellFormed.opcodeListed, zeroField, opcodeField,
    Bool.and_eq_true, Bool.or_eq_true, decide_eq_true_eq, beq_iff_eq]

/-- The two ranges of opcodes have no gap: every number in them is the word of a command. -/
theorem exists_toNat_encode_eq {n : Nat} (h : (0x01 ≤ n ∧ n ≤ 0x04) ∨ (0x10 ≤ n ∧ n ≤ 0x14)) :
    ∃ i, (encode i).toNat = n := by
  obtain ⟨hlow, hhigh⟩ | ⟨hlow, hhigh⟩ := h
  · interval_cases n
    exacts [⟨.hotpGen, rfl⟩, ⟨.hotpVal, rfl⟩, ⟨.totpCtr, rfl⟩, ⟨.totpVal, rfl⟩]
  · interval_cases n
    exacts [⟨.cfgSetDigits, rfl⟩, ⟨.cfgSetAlg, rfl⟩, ⟨.cfgSetPeriod, rfl⟩, ⟨.cfgSetSkew, rfl⟩, ⟨.cfgNew, rfl⟩]

/-- The decoder accepts exactly the legal words, which `WellFormed` describes without it. -/
theorem exists_decode_iff_commandWord {w : Word} : (∃ i, decode w = .ok i) ↔ WellFormed.commandWord w = true := by
  constructor
  · rintro ⟨i, hdecode⟩
    rw [eq_encode_of_decode hdecode]
    exact commandWord_encode i
  · intro hlegal
    obtain ⟨hzero, hrange⟩ := commandWord_eq_true_iff.mp hlegal
    obtain ⟨i, hi⟩ := exists_toNat_encode_eq hrange
    have hw : w = encode i := BitVec.eq_of_toNat_eq ((toNat_eq_opcodeField hzero).trans hi.symm)
    exact ⟨i, decode_eq_ok_iff_eq_encode.mpr hw⟩

/-- Settles O2: the decoder is the encoder's inverse, whose words are the numbers of the opcode map, and
`exists_decode_iff_commandWord` is the legality half. -/
theorem decodeIsTheOpcodeMap : Obligations.DecodeIsTheOpcodeMap := by
  unfold Obligations.DecodeIsTheOpcodeMap
  refine fun w => ⟨fun i => ⟨?_, decode_eq_ok_iff_eq_encode⟩, exists_decode_iff_commandWord⟩
  rw [decode_eq_ok_iff_eq_encode, ← BitVec.toNat_inj]
  cases i <;> exact Iff.rfl

end Sys2Proof.Proofs
end

section
/-! Dynamic truncation and the decimal format (41_hotp.md R81, R83): the window is four packed bytes, and the characters
of a code, read as digits from the left, are its leading digits. -/

namespace Sys2Proof.Proofs

open Sys2Proof Sys2Proof.Machine Sys2Proof.Safety

/-- Four packed bytes as a number (20_memory.md R44). -/
theorem packBytes_toNat (b0 b1 b2 b3 : Byte) :
    (packBytes b0 b1 b2 b3).toNat = b3.toNat * 2 ^ 24 + b2.toNat * 2 ^ 16 + b1.toNat * 2 ^ 8 + b0.toNat := by
  have happend : packBytes b0 b1 b2 b3 = b3 ++ b2 ++ b1 ++ b0 := by
    unfold packBytes
    ext i
    simp only [BitVec.getElem_or, BitVec.getElem_shiftLeft, BitVec.getElem_setWidth]
    grind
  rw [happend]
  simp only [BitVec.toNat_append]
  rw [← Nat.shiftLeft_add_eq_or_of_lt b0.isLt, ← Nat.shiftLeft_add_eq_or_of_lt b1.isLt,
    ← Nat.shiftLeft_add_eq_or_of_lt b2.isLt]
  simp only [Nat.shiftLeft_eq]
  omega

theorem truncOffset_eq (hs : List Byte) : truncOffset hs = (hs.getD (hs.length - 1) 0).toNat % 16 := by
  rw [truncOffset, BitVec.toNat_and]
  exact Nat.and_two_pow_sub_one_eq_mod _ 4

/-- The mask of the top bit of the window. -/
theorem toNat_and_0x7F (b : Byte) : (b &&& 0x7F).toNat = b.toNat % 128 := by
  rw [BitVec.toNat_and]
  exact Nat.and_two_pow_sub_one_eq_mod _ 7

theorem dynamicTruncate_eq_none_iff {hs : List Byte} :
    dynamicTruncate hs = none ↔ hs.length < truncOffset hs + 4 := by
  simp only [dynamicTruncate]
  split <;> simp_all

/-- The window of a truncation is four bytes, most significant first, with the top bit masked (41_hotp.md R81). -/
theorem dynamicTruncate_eq_some {hs : List Byte} {p : Word} (h : dynamicTruncate hs = some p) :
    p = packBytes (hs.getD (truncOffset hs + 3) 0) (hs.getD (truncOffset hs + 2) 0) (hs.getD (truncOffset hs + 1) 0)
      (hs.getD (truncOffset hs) 0 &&& 0x7F) := by
  simp only [dynamicTruncate] at h
  split at h
  · cases h
  · exact (Option.some.inj h).symm

/-- Settles O19: with the offset named by `truncOffset_eq`, the fault is `dynamicTruncate_eq_none_iff`, the value is that
of the four packed bytes, and an offset below 16 decides the two lengths. -/
theorem dynamicTruncationRule : Obligations.DynamicTruncationRule := by
  unfold Obligations.DynamicTruncationRule
  intro hs _
  simp only [← truncOffset_eq]
  have hoff : truncOffset hs < 16 := by
    rw [truncOffset_eq]
    exact Nat.mod_lt _ (by decide)
  refine ⟨dynamicTruncate_eq_none_iff, fun p hp => ?_, fun hlen => ?_, fun hlen => ?_⟩
  · rw [dynamicTruncate_eq_some hp, packBytes_toNat, toNat_and_0x7F]
    exact ⟨by omega, rfl⟩
  · rw [dynamicTruncate_eq_none_iff]
    omega
  · rw [ne_eq, dynamicTruncate_eq_none_iff]
    omega

theorem digitByte_toNat (code d i : Nat) : (digitByte code d i).toNat = 0x30 + code / 10 ^ (d - 1 - i) % 10 := by
  rw [BitVec.toNat_ofNat]
  omega

theorem formatCode_eq_map (code : Nat) (d : DigitCount) :
    formatCode code d = (List.range d.toNat).map (digitByte code d.toNat) := rfl

/-- The first `n` of `d` characters, read from the left, are the code without its last `d - n` digits. -/
theorem foldl_digitBytes {code d : Nat} (hcode : code < 10 ^ d) (n : Nat) (hn : n ≤ d) :
    ((List.range n).map (digitByte code d)).foldl (fun acc b => acc * 10 + (b.toNat - 0x30)) 0 =
      code / 10 ^ (d - n) := by
  induction n with
  | zero => simp [Nat.div_eq_of_lt hcode]
  | succ n ih =>
    have hplace : d - n = d - 1 - n + 1 := by omega
    have hdrop : code / 10 ^ (d - n) = code / 10 ^ (d - 1 - n) / 10 := by
      rw [hplace, pow_succ, Nat.div_div_eq_div_mul]
    have hsucc : d - (n + 1) = d - 1 - n := by omega
    rw [List.range_succ, List.map_append, List.foldl_append, ih (by omega), hdrop, hsucc]
    simp only [List.map_cons, List.map_nil, List.foldl_cons, List.foldl_nil, digitByte_toNat]
    omega

/-- Settles O20: the numeral is `foldl_digitBytes` at all `d` places, and the characters are those of the definition. -/
theorem formatIsTheDecimalNumeral : Obligations.FormatIsTheDecimalNumeral := by
  unfold Obligations.FormatIsTheDecimalNumeral
  intro d code hcode
  refine ⟨formatCode_length code d, formatCode_getD code d, fun b hb => ?_, ?_⟩
  · obtain ⟨i, -, rfl⟩ := List.mem_map.mp hb
    rw [asciiDigit, BitVec.toNat_ofNat]
    omega
  · rw [formatCode_eq_map, foldl_digitBytes hcode d.toNat le_rfl, Nat.sub_self, pow_zero, Nat.div_one]

end Sys2Proof.Proofs
end

section
/-! The HOTP commands (41_hotp.md R84 to R88): in the words of the claims, the checks of an engine command have three
results, and each end of `HOTP_GEN` and `HOTP_VAL` is the state its rule reports. -/

namespace Sys2Proof.Proofs

open Sys2Proof Sys2Proof.Machine Sys2Proof.Safety

/-! ### The checks -/

/-- `ConfigValid` holds exactly when the registers hold some algorithm and some digit count (41_hotp.md R85). -/
theorem configLegal_iff_exists_hasConfig {s : State} : configLegal s ↔ ∃ alg d, hasConfig s alg d := by
  constructor
  · rintro ⟨hdigits, hlow, hhigh⟩
    have hd : ∃ d : DigitCount, s.digits.toNat = d.toNat :=
      hdigits.elim (fun h => ⟨.six, congrArg BitVec.toNat h⟩) (fun h => ⟨.eight, congrArg BitVec.toNat h⟩)
    have ha : ∃ alg : HashAlg, s.alg.toNat = alg.number := by
      obtain h | h | h | h : s.alg.toNat = 1 ∨ s.alg.toNat = 2 ∨ s.alg.toNat = 3 ∨ s.alg.toNat = 4 := by omega
      exacts [⟨.sha1, h⟩, ⟨.sha256, h⟩, ⟨.sha512, h⟩, ⟨.md5, h⟩]
    obtain ⟨d, hd⟩ := hd
    obtain ⟨alg, ha⟩ := ha
    exact ⟨alg, d, hd, ha⟩
  · rintro ⟨alg, d, hd, ha⟩
    constructor
    · cases d with
      | six => exact .inl (BitVec.eq_of_toNat_eq hd)
      | eight => exact .inr (BitVec.eq_of_toNat_eq hd)
    · rw [ha]
      cases alg <;> decide

theorem engineConfig_eq_none_iff {s : State} : engineConfig s = none ↔ ¬ configLegal s := by
  simp only [configLegal_iff_exists_hasConfig, Option.eq_none_iff_forall_ne_some, Prod.forall, ne_eq,
    engineConfig_eq_some, not_exists]

/-- The first test fails: code 2 on cleared results (41_hotp.md R85, 60_exceptions.md R173). -/
theorem engineChecks_of_not_configLegal {s : State} (hc : ¬ configLegal s)
    (k : HashAlg → DigitCount → List Byte → State) : engineChecks (clearResults s) k = reported s 2 false := by
  simp only [engineChecks, engineConfig_clearResults, engineConfig_eq_none_iff.mpr hc]
  rfl

theorem engineChecks_of_hasConfig {s : State} {alg : HashAlg} {d : DigitCount} (hc : hasConfig s alg d)
    (k : HashAlg → DigitCount → List Byte → State) :
    engineChecks (clearResults s) k = if secretValid s then k alg d (secretKey s) else reported s 6 false := by
  simp only [engineChecks, engineConfig_clearResults, engineConfig_eq_some.mpr hc]
  rfl

/-- The second test fails: code 6 on cleared results (41_hotp.md R85, 60_exceptions.md R173). -/
theorem engineChecks_of_not_secretLegal {s : State} (hc : configLegal s) (hs : ¬ secretLegal s)
    (k : HashAlg → DigitCount → List Byte → State) : engineChecks (clearResults s) k = reported s 6 false := by
  obtain ⟨alg, d, hconfig⟩ := configLegal_iff_exists_hasConfig.mp hc
  rw [engineChecks_of_hasConfig hconfig, if_neg (mt (secretValid_iff s).mp hs)]

theorem engineChecks_of_legal {s : State} {alg : HashAlg} {d : DigitCount} (hc : hasConfig s alg d) (hs : secretLegal s)
    (k : HashAlg → DigitCount → List Byte → State) : engineChecks (clearResults s) k = k alg d (secretKey s) := by
  rw [engineChecks_of_hasConfig hc, if_pos ((secretValid_iff s).mpr hs)]

/-! ### `HOTP_GEN` -/

theorem exec_hotpGen (s : State) :
    exec .hotpGen s = .next (engineChecks (clearResults s) fun alg d key =>
      generateResult (clearResults s) (hotp alg d key s.counter)) := rfl

theorem exec_hotpGen_of_legal {s : State} {alg : HashAlg} {d : DigitCount} (hc : hasConfig s alg d)
    (hs : secretLegal s) :
    exec .hotpGen s = .next (generateResult (clearResults s) (hotp alg d (secretKey s) s.counter)) := by
  rw [exec_hotpGen, engineChecks_of_legal hc hs]

/-- The eight bytes of a formatted code: its characters, and 0 beyond them (10_state.md R24). -/
theorem padBytes8_formatCode (code : Nat) (d : DigitCount) :
    padBytes8 (formatCode code d) =
      Vector.ofFn fun i : Fin 8 => if i.val < d.toNat then digitByte code d.toNat i.val else 0 := by
  unfold padBytes8
  congr 1
  funext i
  split
  case isTrue hi => exact formatCode_getD code d i.val hi
  case isFalse hi => exact List.getD_eq_default _ _ (by simpa using hi)

/-- Settles O17: success is the formatted code in the bytes of `padBytes8_formatCode`, and each error is the result of
the test that fails first. -/
theorem hotpGenRule : Obligations.HotpGenRule := by
  unfold Obligations.HotpGenRule
  refine ⟨rfl, fun s => ⟨fun alg d p hc hs hp => ?success, fun hc => ?config, fun hc hs => ?secret,
    fun alg d hc hs hp => ?window⟩⟩
  case success =>
    have hhotp : hotp alg d (secretKey s) s.counter = some (formatCode (p.toNat % 10 ^ d.toNat) d) := by
      rw [hotp_eq, secretKey, hp, Option.map_some, codeOf]
    rw [exec_hotpGen_of_legal hc hs, hhotp, ← padBytes8_formatCode]
    rfl
  case config => rw [exec_hotpGen, engineChecks_of_not_configLegal hc]
  case secret => rw [exec_hotpGen, engineChecks_of_not_secretLegal hc hs]
  case window =>
    have hhotp : hotp alg d (secretKey s) s.counter = none := by rw [hotp_eq, secretKey, hp, Option.map_none]
    rw [exec_hotpGen_of_legal hc hs, hhotp]
    rfl

/-! ### `HOTP_VAL` -/

theorem exec_hotpVal_of_not_lengthMatches {s : State} (hlen : ¬ lengthMatches s) :
    exec .hotpVal s = .next (reported s 4 false) :=
  if_neg (mt (lenOK_iff s).mp hlen)

theorem exec_hotpVal_of_lengthMatches {s : State} (hlen : lengthMatches s) :
    exec .hotpVal s = .next (engineChecks (clearResults s) fun alg d key =>
      validateResult (clearResults s) (hotp alg d key s.counter)) :=
  if_pos ((lenOK_iff s).mpr hlen)

theorem exec_hotpVal_of_legal {s : State} {alg : HashAlg} {d : DigitCount} (hlen : lengthMatches s)
    (hc : hasConfig s alg d) (hs : secretLegal s) :
    exec .hotpVal s = .next (validateResult (clearResults s) (hotp alg d (secretKey s) s.counter)) := by
  rw [exec_hotpVal_of_lengthMatches hlen, engineChecks_of_legal hc hs]

/-- A passcode is compared with cleared results, and only the boolean is reported (41_hotp.md R88). -/
theorem validateResult_clearResults_some (s : State) (r : List Byte) :
    validateResult (clearResults s) (some r) = reported s 0 (passEq s r) := rfl

theorem digitCount_toNat_le (d : DigitCount) : d.toNat ≤ 8 := by cases d <;> decide

/-- With at most eight digits, `PassEq` compares bytes of the buffer only (41_hotp.md R86). -/
theorem passEq_iff_supplies {s : State} (hdigits : s.digits.toNat ≤ 8) (r : List Byte) :
    passEq s r = true ↔ supplies s r := by
  rw [passEq_iff]
  constructor
  · intro h i hi
    rw [← h i hi]
    exact (bufferByte_eq s.passIn i i.isLt).symm
  · intro h i hi
    have hi8 : i < 8 := by omega
    rw [bufferByte_eq s.passIn i hi8]
    exact h ⟨i, hi8⟩ hi

/-- Settles O18: the length is tested first, then what `HOTP_GEN` tests, and the boolean is `passEq`, which compares the
supplied bytes by `passEq_iff_supplies`. -/
theorem hotpValRule : Obligations.HotpValRule := by
  unfold Obligations.HotpValRule
  refine ⟨rfl, fun s => ⟨exec_hotpVal_of_not_lengthMatches, fun hlen hc => ?config, fun hlen hc hs => ?secret,
    fun alg d hc hlen hs => ⟨fun hhotp => ?window, fun r hhotp => ?boolean⟩⟩⟩
  case config => rw [exec_hotpVal_of_lengthMatches hlen, engineChecks_of_not_configLegal hc]
  case secret => rw [exec_hotpVal_of_lengthMatches hlen, engineChecks_of_not_secretLegal hc hs]
  case window =>
    rw [exec_hotpVal_of_legal hlen hc hs, hhotp]
    rfl
  case boolean =>
    have hdigits : s.digits.toNat ≤ 8 := hc.1.trans_le (digitCount_toNat_le d)
    rw [exec_hotpVal_of_legal hlen hc hs, hhotp, validateResult_clearResults_some, ← passEq_iff_supplies hdigits,
      Bool.not_eq_true]
    exact ⟨fun heq => by rw [heq], fun heq => by rw [heq]⟩

end Sys2Proof.Proofs
end

section
/-! The TOTP commands (42_totp.md R100 to R104): floor division picks one counter, the candidates are the counters at
the alternating offsets of the window, and each end of `TOTP_CTR` and `TOTP_VAL` is the state its rule reports. -/

namespace Sys2Proof.Proofs

open Sys2Proof Sys2Proof.Machine Sys2Proof.Safety

/-! ### The counter of a time -/

/-- The floor of a quotient is its `Int.fdiv`, and nothing else is (42_totp.md R100). -/
theorem isFloor_iff_eq_fdiv {t : Int} {p : Nat} (hp : 1 ≤ p) {q : Int} : isFloor t p q ↔ q = t.fdiv p := by
  have hpos : (0 : Int) < p := by omega
  rw [isFloor, Int.fdiv_eq_ediv_of_nonneg t hpos.le, ← Int.le_ediv_iff_mul_le hpos, ← Int.ediv_lt_iff_lt_mul hpos]
  omega

theorem counterFromTime_toNat (t : Int) (p : Nat) : ((counterFromTime t p).toNat : Int) = t.fdiv p % 2 ^ 64 := by
  rw [counterFromTime, BitVec.toNat_ofInt]
  exact Int.toNat_of_nonneg (Int.emod_nonneg _ (by decide))

/-- A quotient of a 64-bit time is not larger than the time, so its 64-bit pattern reads as the quotient itself. -/
theorem sint64_counterFromTime (v : DWord) {p : Nat} (hp : 1 ≤ p) :
    sint64 (counterFromTime (sint64 v) p) = (sint64 v).fdiv p := by
  have hlow : -2 ^ 63 ≤ sint64 v := BitVec.le_toInt v
  have hhigh : sint64 v < 2 ^ 63 := BitVec.toInt_lt
  obtain ⟨hle, hlt⟩ := (isFloor_iff_eq_fdiv hp).mpr (rfl : (sint64 v).fdiv p = _)
  have hqlow : -2 ^ 63 ≤ (sint64 v).fdiv p := by nlinarith
  have hqhigh : (sint64 v).fdiv p < 2 ^ 63 := by nlinarith
  exact BitVec.toInt_ofInt_eq_self (by decide) hqlow hqhigh

theorem one_le_toNat_of_ne_zero {p : Word} (hp : p ≠ 0) : 1 ≤ p.toNat :=
  Nat.one_le_iff_ne_zero.mpr fun h => hp (BitVec.eq_of_toNat_eq h)

/-- The counter of a time of the registers is the one 64-bit pattern that reads as the floor. -/
theorem isFloor_sint64_iff {v c : DWord} {p : Word} (hp : p ≠ 0) :
    isFloor (sint64 v) p.toNat (sint64 c) ↔ c = counterFromTime (sint64 v) p.toNat := by
  have hpos := one_le_toNat_of_ne_zero hp
  rw [isFloor_iff_eq_fdiv hpos, ← sint64_counterFromTime v hpos]
  exact BitVec.toInt_inj

/-- Settles O25: the floor is `Int.fdiv`, by `isFloor_iff_eq_fdiv`, and for the registers it fits in 64 bits. -/
theorem counterFromTimeIsTheFloor : Obligations.CounterFromTimeIsTheFloor := by
  unfold Obligations.CounterFromTimeIsTheFloor
  exact ⟨fun t p hp => ⟨t.fdiv p, (isFloor_iff_eq_fdiv hp).mpr rfl, counterFromTime_toNat t p⟩,
    fun _ _ hp => (isFloor_sint64_iff hp).mpr rfl⟩

/-! ### `TOTP_CTR` -/

/-- Settles O26: the counter written is that of O25, and a period of 0 is tested first. -/
theorem totpCtrRule : Obligations.TotpCtrRule := by
  unfold Obligations.TotpCtrRule
  refine ⟨rfl, fun s => ⟨fun hp => if_pos hp, fun hp => ⟨baseCounter s, ?_, if_neg hp⟩⟩⟩
  exact (isFloor_sint64_iff hp).mpr rfl

/-! ### The candidate window -/

/-- The step from `c0` of the candidate at place `n`: 0, 1, -1, 2, -2, .. (42_totp.md R102). -/
def windowOffset (n : Nat) : Int := if n % 2 = 1 then ((n / 2 + 1 : Nat) : Int) else -((n / 2 : Nat) : Int)

@[simp] theorem windowOffset_zero : windowOffset 0 = 0 := rfl

@[simp] theorem windowOffset_odd (j : Nat) : windowOffset (2 * j + 1) = (j + 1 : Nat) := by
  rw [windowOffset, if_pos (by omega)]
  omega

@[simp] theorem windowOffset_even (j : Nat) : windowOffset (2 * j + 2) = -(j + 1 : Nat) := by
  rw [windowOffset, if_neg (by omega)]
  omega

theorem windowOffset_injective : Function.Injective windowOffset := by
  intro m n h
  unfold windowOffset at h
  split at h <;> split at h <;> omega

/-- The first `2k+1` places hold exactly the steps from `-k` to `k`. -/
theorem exists_windowOffset_eq_iff {k : Nat} {j : Int} :
    (∃ n < 2 * k + 1, windowOffset n = j) ↔ -(k : Int) ≤ j ∧ j ≤ k := by
  constructor
  · rintro ⟨n, hn, rfl⟩
    unfold windowOffset
    split <;> omega
  · rintro ⟨hlow, hhigh⟩
    obtain hj | hj : 0 < j ∨ j ≤ 0 := by omega
    · refine ⟨2 * (j.toNat - 1) + 1, by omega, ?_⟩
      rw [windowOffset_odd]
      omega
    · refine ⟨2 * (-j).toNat, by omega, ?_⟩
      rw [windowOffset, if_neg (by omega)]
      omega

/-- The candidate at place `n` of the window around `c0`. -/
def candidateAt (c0 : DWord) (n : Nat) : DWord := c0 + BitVec.ofInt 64 (windowOffset n)

@[simp] theorem candidateAt_zero (c0 : DWord) : candidateAt c0 0 = c0 := by simp [candidateAt]

@[simp] theorem candidateAt_odd (c0 : DWord) (j : Nat) :
    candidateAt c0 (2 * j + 1) = c0 + BitVec.ofNat 64 (j + 1) := by
  rw [candidateAt, windowOffset_odd, BitVec.ofInt_natCast]

@[simp] theorem candidateAt_even (c0 : DWord) (j : Nat) :
    candidateAt c0 (2 * j + 2) = c0 - BitVec.ofNat 64 (j + 1) := by
  rw [candidateAt, windowOffset_even, BitVec.ofInt_neg, BitVec.ofInt_natCast, ← BitVec.sub_eq_add_neg]

theorem candidates_succ (c0 : DWord) (k : Nat) :
    candidates c0 (k + 1) = candidates c0 k ++ [c0 + BitVec.ofNat 64 (k + 1), c0 - BitVec.ofNat 64 (k + 1)] := by
  simp [candidates, List.range_succ]

/-- The candidates are those of the places 0 to `2k`, in order. -/
theorem candidates_eq_map (c0 : DWord) (k : Nat) :
    candidates c0 k = (List.range (2 * k + 1)).map (candidateAt c0) := by
  induction k with
  | zero => simp [candidates]
  | succ k ih =>
    have hplaces : 2 * (k + 1) + 1 = 2 * k + 1 + 1 + 1 := by omega
    rw [candidates_succ, ih, hplaces, List.range_succ (n := 2 * k + 1 + 1), List.range_succ (n := 2 * k + 1)]
    simp

theorem getElem?_candidates (c0 : DWord) {k n : Nat} (hn : n < 2 * k + 1) :
    (candidates c0 k)[n]? = some (candidateAt c0 n) := by
  simp [candidates_eq_map, hn]

theorem mem_candidates_iff_inWindow {c0 c : DWord} {k : Nat} : c ∈ candidates c0 k ↔ inWindow c0 k c := by
  simp only [candidates_eq_map, List.mem_map, List.mem_range, inWindow, ← and_assoc, ← exists_windowOffset_eq_iff,
    candidateAt]
  constructor
  · rintro ⟨n, hn, rfl⟩
    exact ⟨_, ⟨n, hn, rfl⟩, rfl⟩
  · rintro ⟨_, ⟨n, hn, rfl⟩, rfl⟩
    exact ⟨n, hn, rfl⟩

/-- A window of a 32-bit skew spans less than 2^64 counters, so two places of it hold different ones. -/
theorem candidateAt_injOn (c0 : DWord) {k m n : Nat} (hk : k < 2 ^ 32) (hm : m < 2 * k + 1) (hn : n < 2 * k + 1)
    (h : candidateAt c0 m = candidateAt c0 n) : m = n := by
  have hpattern := congrArg BitVec.toInt ((BitVec.add_right_inj c0).mp h)
  obtain ⟨hmlow, hmhigh⟩ := exists_windowOffset_eq_iff.mp ⟨m, hm, rfl⟩
  obtain ⟨hnlow, hnhigh⟩ := exists_windowOffset_eq_iff.mp ⟨n, hn, rfl⟩
  rw [BitVec.toInt_ofInt_eq_self (by decide) (by omega) (by omega),
    BitVec.toInt_ofInt_eq_self (by decide) (by omega) (by omega)] at hpattern
  exact windowOffset_injective hpattern

theorem candidates_nodup (c0 : DWord) {k : Nat} (hk : k < 2 ^ 32) : (candidates c0 k).Nodup := by
  rw [candidates_eq_map]
  refine List.nodup_range.map_on fun m hm n hn h => ?_
  exact candidateAt_injOn c0 hk (List.mem_range.mp hm) (List.mem_range.mp hn) h

/-- Settles O27: by `candidates_eq_map` the window is a list of places, whose steps are distinct and are those from `-k`
to `k`. -/
theorem candidatesAreTheWindow : Obligations.CandidatesAreTheWindow := by
  unfold Obligations.CandidatesAreTheWindow
  intro c0 k
  refine ⟨by simp [candidates_eq_map], rfl, fun j hj => ?order, candidates_nodup c0 k.isLt,
    fun c => mem_candidates_iff_inWindow⟩
  case order =>
    rw [← candidateAt_odd, ← candidateAt_even]
    exact ⟨getElem?_candidates c0 (by omega), getElem?_candidates c0 (by omega)⟩

/-! ### `TOTP_VAL` -/

theorem exec_totpVal_of_period_eq_zero {s : State} (hp : s.period = 0) :
    exec .totpVal s = .next (reported s 3 false) :=
  if_pos hp

theorem exec_totpVal_of_not_lengthMatches {s : State} (hp : s.period ≠ 0) (hlen : ¬ lengthMatches s) :
    exec .totpVal s = .next (reported s 4 false) :=
  (if_neg hp).trans (if_neg (mt (lenOK_iff s).mp hlen))

theorem exec_totpVal_of_lengthMatches {s : State} (hp : s.period ≠ 0) (hlen : lengthMatches s) :
    exec .totpVal s = .next (engineChecks (clearResults s) fun alg d key =>
      windowOutcome (clearResults s)
        (windowSearch (hotp alg d key) (passEq s) (candidates (baseCounter s) s.skew.toNat))) :=
  (if_neg hp).trans (if_pos ((lenOK_iff s).mpr hlen))

theorem exec_totpVal_of_legal {s : State} {alg : HashAlg} {d : DigitCount} (hp : s.period ≠ 0)
    (hlen : lengthMatches s) (hc : hasConfig s alg d) (hs : secretLegal s) :
    exec .totpVal s = .next (windowOutcome (clearResults s)
      (windowSearch (hotp alg d (secretKey s)) (passEq s) (candidates (baseCounter s) s.skew.toNat))) := by
  rw [exec_totpVal_of_lengthMatches hp hlen, engineChecks_of_legal hc hs]

/-- The third result of the window: no candidate matches and none faults (42_totp.md R103). -/
theorem windowSearch_eq_unmatched {h : DWord → Option (List Byte)} {eq : List Byte → Bool} {cs : List DWord} :
    windowSearch h eq cs = .unmatched ↔
      (∀ c ∈ cs, ∀ r, h c = some r → eq r = false) ∧ ∀ c ∈ cs, h c ≠ none := by
  constructor
  · intro hres
    have hno : ∀ c ∈ cs, ∀ r, h c = some r → eq r = false := fun c hc r hr =>
      Bool.eq_false_iff.mpr fun heq => nomatch hres.symm.trans (windowSearch_eq_matched.mpr ⟨c, hc, r, hr, heq⟩)
    exact ⟨hno, fun c hc hnone => nomatch hres.symm.trans (windowSearch_eq_faulted.mpr ⟨hno, c, hc, hnone⟩)⟩
  · rintro ⟨hno, hsome⟩
    cases hres : windowSearch h eq cs with
    | matched =>
      obtain ⟨c, hc, r, hr, heq⟩ := windowSearch_eq_matched.mp hres
      exact absurd heq (Bool.eq_false_iff.mp (hno c hc r hr))
    | faulted =>
      obtain ⟨-, c, hc, hnone⟩ := windowSearch_eq_faulted.mp hres
      exact absurd hnone (hsome c hc)
    | unmatched => rfl

/-- Settles O29: the errors are the tests that fail first, and the result of the window is that of `windowSearch` over
the candidates, which are the counters of the window around the floor. -/
theorem totpValRule : Obligations.TotpValRule := by
  unfold Obligations.TotpValRule
  refine ⟨rfl, fun s => ⟨exec_totpVal_of_period_eq_zero, exec_totpVal_of_not_lengthMatches,
    fun hp hlen hc => ?config, fun hp hlen hc hs => ?secret, fun alg d c0 hp hlen hc hs hc0 => ?search⟩⟩
  case config => rw [exec_totpVal_of_lengthMatches hp hlen, engineChecks_of_not_configLegal hc]
  case secret => rw [exec_totpVal_of_lengthMatches hp hlen, engineChecks_of_not_secretLegal hc hs]
  case search =>
    have hdigits : s.digits.toNat ≤ 8 := hc.1.trans_le (digitCount_toNat_le d)
    have hbase : baseCounter s = c0 := ((isFloor_sint64_iff hp).mp hc0).symm
    simp only [exec_totpVal_of_legal hp hlen hc hs, hbase, ← mem_candidates_iff_inWindow,
      ← passEq_iff_supplies hdigits, Bool.not_eq_true]
    refine ⟨fun ⟨c, r, hmem, hhotp, heq⟩ => ?matched, fun hno => ⟨fun hfault => ?faulted, fun hsome => ?unmatched⟩⟩
    case matched =>
      rw [windowSearch_eq_matched.mpr ⟨c, hmem, r, hhotp, heq⟩]
      rfl
    case faulted =>
      rw [windowSearch_eq_faulted.mpr ⟨fun c hc r => hno c r hc, hfault⟩]
      rfl
    case unmatched =>
      rw [windowSearch_eq_unmatched.mpr ⟨fun c hc r => hno c r hc, hsome⟩]
      rfl

end Sys2Proof.Proofs
end

section
/-! The configuration commands (43_config.md R120 to R126): the argument tests as the ranges of the claims, a stored field
as the argument it stands for, and one equation per command, from which each rule is the choice of a branch. -/

namespace Sys2Proof.Proofs

open Sys2Proof Sys2Proof.Machine Sys2Proof.Safety

/-! ### The argument tests (43_config.md R126) -/

theorem digitsArgLegal_iff {a : Word} : digitsArgLegal a = true ↔ a = 6 ∨ a = 8 := by
  simp only [digitsArgLegal, Bool.or_eq_true, beq_iff_eq]

theorem algArgLegal_iff {a : Word} : algArgLegal a = true ↔ 1 ≤ a.toNat ∧ a.toNat ≤ 4 := by
  simp only [algArgLegal, Bool.and_eq_true, decide_eq_true_eq]

theorem periodArgLegal_iff {a : Word} : periodArgLegal a = true ↔ a ≠ 0 := bne_iff_ne

/-! ### The stored fields -/

/-- A field keeps an argument that fits in it (10_state.md R17). -/
theorem extractLsb'_zero_eq_of_toNat_eq {n : Nat} {a : Word} {b : BitVec n} (h : a.toNat = b.toNat) :
    a.extractLsb' 0 n = b := by
  apply BitVec.eq_of_toNat_eq
  rw [BitVec.extractLsb'_toNat, Nat.shiftRight_zero, h, Nat.mod_eq_of_lt b.isLt]

theorem setDigits_of_toNat_eq {a : Word} {d : BitVec 4} (h : a.toNat = d.toNat) (s : State) :
    setDigits a s = { s with digits := d } := by
  rw [setDigits, extractLsb'_zero_eq_of_toNat_eq h]

theorem setAlg_of_toNat_eq {a : Word} {n : BitVec 3} (h : a.toNat = n.toNat) (s : State) :
    setAlg a s = { s with alg := n } := by
  rw [setAlg, extractLsb'_zero_eq_of_toNat_eq h]

/-! ### The single setters -/

/-- `CFG_SET_DIGITS` (43_config.md R120), with the test as the range of its legal arguments. -/
theorem exec_cfgSetDigits (s : State) :
    exec .cfgSetDigits s =
      if s.arg0 = 6 ∨ s.arg0 = 8 then .next (setDigits s.arg0 (clearResults s)) else .next (reported s 3 false) := by
  simp only [← digitsArgLegal_iff]
  rfl

/-- `CFG_SET_ALG` (43_config.md R121), with the test as the range of its legal arguments. -/
theorem exec_cfgSetAlg (s : State) :
    exec .cfgSetAlg s =
      if 1 ≤ s.arg0.toNat ∧ s.arg0.toNat ≤ 4 then .next (setAlg s.arg0 (clearResults s))
      else .next (reported s 3 false) := by
  simp only [← algArgLegal_iff]
  rfl

/-- `CFG_SET_PERIOD` (43_config.md R122), with the test as the range of its legal arguments. -/
theorem exec_cfgSetPeriod (s : State) :
    exec .cfgSetPeriod s =
      if s.arg0 ≠ 0 then .next (setPeriod s.arg0 (clearResults s)) else .next (reported s 3 false) := by
  simp only [← periodArgLegal_iff]
  rfl

/-- Settles O33: a legal argument takes the first branch of `exec_cfgSetDigits` and the field holds its four low bits,
any other takes the second. -/
theorem cfgSetDigitsRule : Obligations.CfgSetDigitsRule := by
  unfold Obligations.CfgSetDigitsRule
  refine ⟨rfl, fun s => ⟨fun h => ?six, fun h => ?eight, fun hsix height => ?other⟩⟩
  case six =>
    rw [exec_cfgSetDigits, if_pos (.inl h), h]
    rfl
  case eight =>
    rw [exec_cfgSetDigits, if_pos (.inr h), h]
    rfl
  case other => rw [exec_cfgSetDigits, if_neg (not_or.mpr ⟨hsix, height⟩)]

/-- Settles O34: a legal argument takes the first branch of `exec_cfgSetAlg` and its field holds it, any other takes the
second. -/
theorem cfgSetAlgRule : Obligations.CfgSetAlgRule := by
  unfold Obligations.CfgSetAlgRule
  refine ⟨rfl, fun s => ⟨fun a hlow hhigh ha => ?legal, fun hout => ?illegal⟩⟩
  case legal =>
    rw [exec_cfgSetAlg, if_pos (by omega), setAlg_of_toNat_eq ha]
    rfl
  case illegal => rw [exec_cfgSetAlg, if_neg (by omega)]

/-- Settles O35: the two clauses are the two branches of `exec_cfgSetPeriod`. -/
theorem cfgSetPeriodRule : Obligations.CfgSetPeriodRule := by
  unfold Obligations.CfgSetPeriodRule
  refine ⟨rfl, fun s => ⟨fun hnonzero => ?legal, fun hzero => ?illegal⟩⟩
  case legal => exact (exec_cfgSetPeriod s).trans (if_pos hnonzero)
  case illegal => exact (exec_cfgSetPeriod s).trans (if_neg (not_not.mpr hzero))

/-- Settles O36: the command has no test, so it is its one write on cleared results. -/
theorem cfgSetSkewRule : Obligations.CfgSetSkewRule := by
  unfold Obligations.CfgSetSkewRule
  exact ⟨rfl, fun _ => rfl⟩

/-! ### `CFG_NEW` -/

/-- Bad digits and a bad algorithm share a code and are tested before the period; only past all three are the four
registers written (43_config.md R124). -/
theorem exec_cfgNew (s : State) :
    exec .cfgNew s =
      if (s.arg0 = 6 ∨ s.arg0 = 8) ∧ 1 ≤ s.arg1.toNat ∧ s.arg1.toNat ≤ 4 then
        if s.arg2 ≠ 0 then
          .next (setSkew s.arg3 (setPeriod s.arg2 (setAlg s.arg1 (setDigits s.arg0 (clearResults s)))))
        else .next (reported s 3 false)
      else .next (reported s 2 false) := by
  simp only [← digitsArgLegal_iff, ← algArgLegal_iff, ← periodArgLegal_iff, ite_and]
  simp only [exec, execCfgNew, Bool.not_eq_true', ← Bool.not_eq_true, ite_not]
  rfl

/-- Settles O37: each clause is the branch of `exec_cfgNew` its hypotheses choose. -/
theorem cfgNewRule : Obligations.CfgNewRule := by
  unfold Obligations.CfgNewRule
  refine ⟨rfl, fun s => ⟨fun hsix height => ?digits, fun _ hout => ?alg, fun hd hlow hhigh hzero => ?period,
    fun d a hd harg0 hlow hhigh harg1 hnonzero => ?legal⟩⟩
  case digits => rw [exec_cfgNew, if_neg fun hlegal => hlegal.1.elim hsix height]
  case alg => rw [exec_cfgNew, if_neg (by omega)]
  case period => rw [exec_cfgNew, if_pos ⟨hd, hlow, hhigh⟩, if_neg (not_not.mpr hzero)]
  case legal =>
    have hdigits : s.arg0 = 6 ∨ s.arg0 = 8 := by
      obtain rfl | rfl := hd
      exacts [.inl (BitVec.eq_of_toNat_eq harg0), .inr (BitVec.eq_of_toNat_eq harg0)]
    rw [exec_cfgNew, if_pos ⟨hdigits, by omega⟩, if_pos hnonzero, setDigits_of_toNat_eq harg0,
      setAlg_of_toNat_eq harg1]
    rfl

end Sys2Proof.Proofs
end

section
/-! HMAC's key rule (48_hmac_hash.md R140, R141): a digest's length is fixed by the algorithm and fits in a block, and HMAC
sees its key only as the block key, on which keys that act alike agree. -/

namespace Sys2Proof.Proofs

open Sys2Proof Sys2Proof.Machine

/-! ### Lengths (48_hmac_hash.md R140) -/

@[simp] theorem digest_length (alg : HashAlg) (m : List Byte) : (digest alg m).length = alg.digestLength := by
  cases alg with
  | sha1 => simp [digest, sha1, HashAlg.digestLength]
  | sha256 => exact sha2Bytes_length 4 _
  | sha512 => exact sha2Bytes_length 8 _
  | md5 => simp [digest, md5, HashAlg.digestLength]

@[simp] theorem hmac_length (alg : HashAlg) (key msg : List Byte) : (hmac alg key msg).length = alg.digestLength :=
  digest_length alg _

theorem digestLength_le_blockLength (alg : HashAlg) : alg.digestLength ≤ alg.blockLength := by cases alg <;> decide

theorem blockLength_eq (alg : HashAlg) : alg.blockLength = if alg = .sha512 then 128 else 64 := by cases alg <;> rfl

/-! ### The block key (48_hmac_hash.md R141) -/

section
variable {alg : HashAlg} {key : List Byte}

theorem hmacKey_of_blockLength_lt (h : alg.blockLength < key.length) : hmacKey alg key = digest alg key := if_pos h

theorem hmacKey_of_length_le (h : key.length ≤ alg.blockLength) : hmacKey alg key = key := if_neg h.not_gt

theorem hmacBlockKey_of_length_le (h : key.length ≤ alg.blockLength) :
    hmacBlockKey alg key = key ++ List.replicate (alg.blockLength - key.length) 0 := by
  rw [hmacBlockKey, hmacKey_of_length_le h]

theorem hmacBlockKey_of_length_eq (h : key.length = alg.blockLength) : hmacBlockKey alg key = key := by
  rw [hmacBlockKey_of_length_le h.le, h, Nat.sub_self, List.replicate_zero, List.append_nil]

/-- The digest of a long key is not hashed again, for it fits in a block. -/
theorem hmacBlockKey_digest (h : alg.blockLength < key.length) :
    hmacBlockKey alg (digest alg key) = hmacBlockKey alg key := by
  have hfits : (digest alg key).length ≤ alg.blockLength := by
    rw [digest_length]
    exact digestLength_le_blockLength alg
  rw [hmacBlockKey, hmacBlockKey, hmacKey_of_length_le hfits, hmacKey_of_blockLength_lt h]

/-- Zeros appended to a key are the first zeros of its padding. -/
theorem hmacBlockKey_append_zeros {n : Nat} (h : key.length + n ≤ alg.blockLength) :
    hmacBlockKey alg (key ++ List.replicate n 0) = hmacBlockKey alg key := by
  have hlen : (key ++ List.replicate n (0 : Byte)).length = key.length + n := by simp
  have hzeros : n + (alg.blockLength - (key.length + n)) = alg.blockLength - key.length := by omega
  rw [hmacBlockKey_of_length_le (hlen.trans_le h), hmacBlockKey_of_length_le (by omega), hlen, List.append_assoc,
    List.replicate_append_replicate, hzeros]

theorem hmac_congr_blockKey {key' : List Byte} (h : hmacBlockKey alg key = hmacBlockKey alg key') (msg : List Byte) :
    hmac alg key msg = hmac alg key' msg := by
  rw [hmac_eq, hmac_eq, h]

end

/-- Settles O44: a long key and its digest, and a key with and without zeros after it, have the same block key; a key of
a whole block is its own. -/
theorem hmacKeyRule : Obligations.HmacKeyRule := by
  unfold Obligations.HmacKeyRule
  intro alg key msg
  simp only [← blockLength_eq]
  refine ⟨hmac_length alg key msg, fun hlong => ?long, fun n hfits => ?padded, fun hblock => ?whole⟩
  case long => exact (hmac_congr_blockKey (hmacBlockKey_digest hlong) msg).symm
  case padded => exact hmac_congr_blockKey (hmacBlockKey_append_zeros hfits) msg
  case whole =>
    rw [hmac_eq, hmacBlockKey_of_length_eq hblock]
    rfl

end Sys2Proof.Proofs
end

section
/-! What every command keeps and what it reports (60_exceptions.md R171, R173, 43_config.md R125): each fact is read off
the results that `exec_result` allows. -/

namespace Sys2Proof.Proofs

open Sys2Proof Sys2Proof.Machine Sys2Proof.Safety

section
variable {i : Instr} {s t : State}

/-- An outcome of a command is one of the results of `exec_result`. -/
theorem execResult_of_exec (h : exec i s = .next t) : ExecResult i s t := by
  obtain ⟨u, hu, hresult⟩ := exec_result i s
  rw [h] at hu
  cases hu
  exact hresult

/-- No command writes an operand or a byte of the secret (10_state.md R16, R22). -/
theorem sameOperands_of_execResult (h : ExecResult i s t) : SameOperands s t := by
  cases h <;> exact ⟨rfl, rfl, rfl, rfl, rfl, rfl, rfl, rfl, fun _ => rfl⟩

theorem sameOutside_of_execResult (h : ExecResult i s t) : SameOutside s t := by
  cases h <;> exact ⟨rfl, rfl, rfl⟩

/-- Only `TOTP_CTR` writes `COUNTER` (42_totp.md R101). -/
theorem counter_of_execResult (h : ExecResult i s t) (hi : i ≠ .totpCtr) : t.counter = s.counter := by
  cases h
  case counter hctr _ => exact absurd hctr hi
  all_goals rfl

/-- Only `HOTP_GEN` leaves a passcode (41_hotp.md R87). -/
theorem passOut_of_execResult (h : ExecResult i s t) (hi : i ≠ .hotpGen) :
    t.passOut = zeroBytes8 ∧ t.passOutLen = 0 := by
  cases h
  case passcode _ _ _ hgen _ _ _ => exact absurd hgen hi
  all_goals exact ⟨rfl, rfl⟩

/-- A result with an error is the error reported on cleared results, and its kind is one of the command's. -/
theorem exists_error_of_execResult (h : ExecResult i s t) (herr : t.err ≠ 0) :
    ∃ e ∈ errorsOf i, t = raise e (clearResults s) := by
  cases h
  case error e he => exact ⟨e, he, rfl⟩
  all_goals exact absurd rfl herr

/-- A match is reported by a validation, without an error (10_state.md R26). -/
theorem match_of_execResult (h : ExecResult i s t) (hmatch : t.matchFlag = true) :
    t.err = 0 ∧ (i = .hotpVal ∨ i = .totpVal) := by
  cases h
  case boolean b hval => exact ⟨rfl, hval⟩
  all_goals cases hmatch

/-- A passcode is reported by `HOTP_GEN`, without an error (10_state.md R25). -/
theorem passOutLen_of_execResult (h : ExecResult i s t) (hlen : t.passOutLen ≠ 0) : t.err = 0 ∧ i = .hotpGen := by
  cases h
  case passcode _ _ _ hgen _ _ _ => exact ⟨rfl, hgen⟩
  all_goals exact absurd rfl hlen

/-! ### The configuration registers (43_config.md R120 to R125) -/

/-- Each configuration register has two writers, its own setter and `CFG_NEW`. -/
theorem config_of_execResult (h : ExecResult i s t) :
    (i ∉ [Instr.cfgSetDigits, .cfgNew] → t.digits = s.digits) ∧
      (i ∉ [Instr.cfgSetAlg, .cfgNew] → t.alg = s.alg) ∧
      (i ∉ [Instr.cfgSetPeriod, .cfgNew] → t.period = s.period) ∧
      (i ∉ [Instr.cfgSetSkew, .cfgNew] → t.skew = s.skew) := by
  cases h
  case digits hi _ => exact ⟨fun hwriter => absurd (by simp [hi]) hwriter, fun _ => rfl, fun _ => rfl, fun _ => rfl⟩
  case alg hi _ => exact ⟨fun _ => rfl, fun hwriter => absurd (by simp [hi]) hwriter, fun _ => rfl, fun _ => rfl⟩
  case period hi _ => exact ⟨fun _ => rfl, fun _ => rfl, fun hwriter => absurd (by simp [hi]) hwriter, fun _ => rfl⟩
  case skew hi => exact ⟨fun _ => rfl, fun _ => rfl, fun _ => rfl, fun hwriter => absurd (by simp [hi]) hwriter⟩
  case configuration hi _ _ _ => simp [hi]
  all_goals exact ⟨fun _ => rfl, fun _ => rfl, fun _ => rfl, fun _ => rfl⟩

end

/-- Settles O38: `exec_result` gives the next state, and an error is reported on cleared results. -/
theorem failedCommandChangesOnlyResults : Obligations.FailedCommandChangesOnlyResults := by
  unfold Obligations.FailedCommandChangesOnlyResults
  intro i s
  obtain ⟨t, ht, hresult⟩ := exec_result i s
  refine ⟨t, ht, fun herr => ?_⟩
  obtain ⟨e, -, rfl⟩ := exists_error_of_execResult hresult herr
  rfl

/-- Settles O40: a nonzero code is that of one of the command's errors, whose codes are listed per command. -/
theorem codesOfEachCommand : Obligations.CodesOfEachCommand := by
  unfold Obligations.CodesOfEachCommand
  intro i s t hexec
  have hresult := execResult_of_exec hexec
  refine ⟨?codes, match_of_execResult hresult, passOutLen_of_execResult hresult⟩
  by_cases herr : t.err = 0
  · rw [herr]
    cases i <;> decide
  · obtain ⟨e, he, rfl⟩ := exists_error_of_execResult hresult herr
    rw [raise_err]
    clear hexec hresult herr
    revert e
    cases i <;> decide

/-- An engine command is none of the commands that write a configuration register. -/
theorem engineCommand_configures_nothing : ∀ i ∈ [Instr.hotpGen, .hotpVal, .totpCtr, .totpVal],
    i ∉ [Instr.cfgSetDigits, .cfgNew] ∧ i ∉ [Instr.cfgSetAlg, .cfgNew] ∧ i ∉ [Instr.cfgSetPeriod, .cfgNew] ∧
      i ∉ [Instr.cfgSetSkew, .cfgNew] := by decide

/-- Settles O41: each part is what the result of an engine command keeps. -/
theorem engineCommandsFrame : Obligations.EngineCommandsFrame := by
  unfold Obligations.EngineCommandsFrame
  intro i s t hi hexec
  have hresult := execResult_of_exec hexec
  obtain ⟨hnotDigits, hnotAlg, hnotPeriod, hnotSkew⟩ := engineCommand_configures_nothing i hi
  obtain ⟨hdigits, halg, hperiod, hskew⟩ := config_of_execResult hresult
  exact ⟨⟨hdigits hnotDigits, halg hnotAlg, hperiod hnotPeriod, hskew hnotSkew⟩, sameOperands_of_execResult hresult,
    sameOutside_of_execResult hresult, counter_of_execResult hresult, passOut_of_execResult hresult⟩

theorem configCommand_is_no_engineCommand :
    ∀ i ∈ [Instr.cfgSetDigits, .cfgSetAlg, .cfgSetPeriod, .cfgSetSkew, .cfgNew],
      i ≠ .totpCtr ∧ i ≠ .hotpGen ∧ ¬ (i = .hotpVal ∨ i = .totpVal) := by decide

/-- Settles O42: each part is what the result of a configuration command keeps, and with an error every register. -/
theorem configCommandsFrame : Obligations.ConfigCommandsFrame := by
  unfold Obligations.ConfigCommandsFrame
  intro i s t hi hexec
  have hresult := execResult_of_exec hexec
  obtain ⟨hctr, hgen, hval⟩ := configCommand_is_no_engineCommand i hi
  obtain ⟨hdigits, halg, hperiod, hskew⟩ := config_of_execResult hresult
  obtain ⟨hpassOut, hpassOutLen⟩ := passOut_of_execResult hresult hgen
  refine ⟨sameOperands_of_execResult hresult, sameOutside_of_execResult hresult, counter_of_execResult hresult hctr,
    fun herr => ?failed, hdigits, halg, hperiod, hskew, hpassOut, hpassOutLen,
    Bool.eq_false_iff.mpr fun hmatch => hval (match_of_execResult hresult hmatch).2⟩
  case failed =>
    obtain ⟨e, -, rfl⟩ := exists_error_of_execResult hresult herr
    exact ⟨rfl, rfl, rfl, rfl⟩

end Sys2Proof.Proofs
end

section
/-! The invariant (10_state.md R11, R12, R14, R22, R24 to R26): each of its four parts is kept by every command, by
every store and by the bookkeeping of a step, and `step_cases` puts them together. -/

namespace Sys2Proof.Proofs

open Sys2Proof Sys2Proof.Machine Sys2Proof.Safety

/-! ### The parts of the invariant as propositions -/

theorem secretInBounds_iff {s : State} :
    secretInBounds s = true ↔ Memory.wf s.secret = true ∧ Memory.within s.params.secretMax s.secret = true := by
  rw [secretInBounds, Bool.and_eq_true]

theorem configReachable_iff {s : State} :
    configReachable s = true ↔ (s.digits = 0 ∨ s.digits = 6 ∨ s.digits = 8) ∧ s.alg.toNat ≤ 4 ∧ s.period ≠ 0 := by
  simp only [configReachable, Bool.and_eq_true, Bool.or_eq_true, beq_iff_eq, bne_iff_ne, decide_eq_true_eq, or_assoc,
    and_assoc]

theorem statusReachable_iff {s : State} :
    statusReachable s = true ↔ s.err ≠ 1 ∧ s.err.toNat ≤ 7 ∧ (s.matchFlag = true → s.err = 0) := by
  simp only [statusReachable, Bool.and_eq_true, Bool.or_eq_true, beq_iff_eq, bne_iff_ne, decide_eq_true_eq, and_assoc,
    Bool.not_eq_true', ← Bool.not_eq_true, imp_iff_not_or]

theorem resultReachable_of_cleared {s : State} (hout : s.passOut = zeroBytes8) (hlen : s.passOutLen = 0) :
    resultReachable s = true := by
  simp [resultReachable, hout, hlen]

/-- The invariant reads the secret, the configuration, the results and the parameters, and nothing else. -/
theorem machineInv_congr {s t : State} (hconfig : SameConfig s t) (hresults : SameResults s t)
    (hsecret : t.secret = s.secret) (hparams : t.params = s.params) (hinv : MachineInv s) : MachineInv t := by
  obtain ⟨hdigits, halg, hperiod, -⟩ := hconfig
  obtain ⟨herr, hmatch, hout, hlen⟩ := hresults
  obtain ⟨hs, hc, hst, hr⟩ := hinv
  constructor
  · rwa [secretInBounds, hsecret, hparams]
  · rwa [configReachable, hdigits, halg, hperiod]
  · rwa [statusReachable, herr, hmatch]
  · rwa [resultReachable, hout, hlen, herr, hmatch, hdigits]

/-! ### Commands -/

section
variable {i : Instr} {s t : State}

theorem secret_of_execResult (h : ExecResult i s t) : t.secret = s.secret := by cases h <;> rfl

theorem secretInBounds_of_execResult (h : ExecResult i s t) (hs : secretInBounds s = true) :
    secretInBounds t = true := by
  obtain ⟨hparams, -⟩ := sameOutside_of_execResult h
  rwa [secretInBounds, secret_of_execResult h, hparams]

/-- A legal digits argument is stored as itself (43_config.md R120). -/
theorem extractLsb'_of_digitsArgLegal {a : Word} (h : digitsArgLegal a = true) :
    a.extractLsb' 0 4 = 6 ∨ a.extractLsb' 0 4 = 8 := by
  obtain rfl | rfl := digitsArgLegal_iff.mp h
  exacts [.inl rfl, .inr rfl]

/-- A legal algorithm argument is stored as itself (43_config.md R121). -/
theorem extractLsb'_of_algArgLegal {a : Word} (h : algArgLegal a = true) : (a.extractLsb' 0 3).toNat ≤ 4 := by
  obtain ⟨-, hhigh⟩ := algArgLegal_iff.mp h
  rw [BitVec.extractLsb'_toNat, Nat.shiftRight_zero]
  omega

/-- A command writes a configuration register only with an argument that it has tested (43_config.md R125). -/
theorem configReachable_of_execResult (h : ExecResult i s t) (hs : configReachable s = true) :
    configReachable t = true := by
  rw [configReachable_iff] at hs ⊢
  obtain ⟨hdigits, halg, hperiod⟩ := hs
  cases h
  case digits _ hd => exact ⟨.inr (extractLsb'_of_digitsArgLegal hd), halg, hperiod⟩
  case alg _ ha => exact ⟨hdigits, extractLsb'_of_algArgLegal ha, hperiod⟩
  case period _ hp => exact ⟨hdigits, halg, periodArgLegal_iff.mp hp⟩
  case configuration _ hd ha hp =>
    exact ⟨.inr (extractLsb'_of_digitsArgLegal hd), extractLsb'_of_algArgLegal ha, periodArgLegal_iff.mp hp⟩
  all_goals exact ⟨hdigits, halg, hperiod⟩

/-- The reserved kind `InvalidSecretEncoding` is no command's, and the other codes end at 7 (60_exceptions.md R170). -/
theorem code_of_mem_errorsOf {e : ErrorKind} (he : e ∈ errorsOf i) : e.code ≠ 1 ∧ e.code.toNat ≤ 7 := by
  revert e
  cases i <;> decide

theorem statusReachable_of_execResult (h : ExecResult i s t) : statusReachable t = true := by
  have hcode : t.err ≠ 1 ∧ t.err.toNat ≤ 7 := by
    by_cases herr : t.err = 0
    · rw [herr]
      decide
    · obtain ⟨e, he, rfl⟩ := exists_error_of_execResult h herr
      exact code_of_mem_errorsOf he
  obtain ⟨hreserved, hhigh⟩ := hcode
  exact statusReachable_iff.mpr ⟨hreserved, hhigh, fun hmatch => (match_of_execResult h hmatch).1⟩

theorem bufferByte_padBytes8 (bs : List Byte) {j : Nat} (hj : j < 8) : bufferByte (padBytes8 bs) j = bs.getD j 0 := by
  rw [bufferByte_eq _ _ hj, padBytes8, Vector.getElem_ofFn]

/-- The characters of a passcode are decimal digits (41_hotp.md R83). -/
theorem asciiDigit_range (k : Nat) : 0x30 ≤ (asciiDigit (k % 10)).toNat ∧ (asciiDigit (k % 10)).toNat ≤ 0x39 := by
  rw [asciiDigit, BitVec.toNat_ofNat]
  omega

/-- The eight bytes of a passcode: its digits, and 0 beyond them (10_state.md R24). -/
theorem passcodeByte_of_hotp {alg : HashAlg} {d : DigitCount} {key r : List Byte} {c : DWord}
    (h : hotp alg d key c = some r) (j : Nat) (hj : j < 8) :
    passcodeByte d.toNat j (bufferByte (padBytes8 r) j) = true := by
  rw [bufferByte_padBytes8 r hj, passcodeByte]
  split
  case isTrue hinside =>
    rw [hotp_eq, Option.map_eq_some_iff] at h
    obtain ⟨p, -, rfl⟩ := h
    rw [formatCode_getD _ _ _ hinside]
    simpa using asciiDigit_range _
  case isFalse hbeyond =>
    rw [List.getD_eq_default _ _ (by rw [hotp_length h]; omega)]
    rfl

/-- A passcode that `HOTP_GEN` leaves has the configured length, and every other result is cleared. -/
theorem resultReachable_of_execResult (h : ExecResult i s t) : resultReachable t = true := by
  cases h
  case passcode alg d r hi hc hs hr =>
    obtain ⟨hdigits, -⟩ := engineConfig_eq_some.mp hc
    have hset : s.digits ≠ 0 := by
      rintro h0
      rw [h0] at hdigits
      cases d <;> cases hdigits
    simp only [resultReachable, putPasscode_err, putPasscode_matchFlag, putPasscode_digits, putPasscode_passOutLen,
      putPasscode_passOut, clearResults_err, clearResults_matchFlag, clearResults_digits, Bool.or_eq_true,
      Bool.and_eq_true, beq_self_eq_true, bne_iff_ne, List.all_eq_true, List.mem_range, hdigits]
    exact .inr ⟨⟨⟨⟨trivial, rfl⟩, hset⟩, trivial⟩, passcodeByte_of_hotp hr⟩
  all_goals exact resultReachable_of_cleared rfl rfl

theorem machineInv_of_execResult (h : ExecResult i s t) (hinv : MachineInv s) : MachineInv t :=
  ⟨secretInBounds_of_execResult h hinv.secret, configReachable_of_execResult h hinv.config,
    statusReachable_of_execResult h, resultReachable_of_execResult h⟩

end

/-- An illegal word leaves code 5 on cleared results (30_encoding.md R62). -/
theorem machineInv_illegalCommand {s : State} (hinv : MachineInv s) : MachineInv (illegalCommand s) :=
  ⟨hinv.secret, hinv.config, by rfl, resultReachable_of_cleared rfl rfl⟩

/-! ### Stores -/

/-- A store writes no configuration register and no result, and nothing outside the block (20_memory.md R43). -/
theorem storePlace_frame (w : Word) (s : State) (pl : Place) :
    SameConfig s (storePlace w s pl) ∧ SameResults s (storePlace w s pl) ∧ SameOutside s (storePlace w s pl) := by
  cases pl <;> exact ⟨⟨rfl, rfl, rfl, rfl⟩, ⟨rfl, rfl, rfl, rfl⟩, rfl, rfl, rfl⟩

/-- Only a word of the secret window stores in the secret buffer (20_memory.md R43). -/
theorem secret_storePlace (w : Word) (s : State) {pl : Place} (h : ∀ k, pl ≠ .secretW k) :
    (storePlace w s pl).secret = s.secret := by
  cases pl
  case secretW k => exact absurd rfl (h k)
  all_goals rfl

theorem machineInv_storePlace {s : State} (w : Word) (off : Nat) (hinv : MachineInv s) :
    MachineInv (storePlace w s (placeAt s.params off)) := by
  cases hpl : placeAt s.params off
  case secretW k =>
    obtain ⟨hwf, hwithin⟩ := secretInBounds_iff.mp hinv.secret
    have hinside := placeAt_secretW hpl
    have hstored : secretInBounds (storePlace w s (.secretW k)) = true :=
      secretInBounds_iff.mpr ⟨Memory.wf_writeWord _ _ _ hwf, Memory.within_writeWord _ _ _ _ hinside hwithin⟩
    exact ⟨hstored, hinv.config, hinv.status, hinv.result⟩
  all_goals
    obtain ⟨hconfig, hresults, hparams, -⟩ := storePlace_frame w s (placeAt s.params off)
    rw [hpl] at hconfig hresults hparams
    exact machineInv_congr hconfig hresults (secret_storePlace w s nofun) hparams hinv

/-! ### Reset and the step -/

/-- The stream is not part of the invariant. -/
theorem machineInv_withPending {s : State} (hinv : MachineInv s) (rest : List HostEvent) :
    MachineInv { s with pending := rest } :=
  ⟨hinv.secret, hinv.config, hinv.status, hinv.result⟩

/-- The replies are not part of the invariant. -/
theorem machineInv_pushReply {s : State} (hinv : MachineInv s) (w : Word) : MachineInv (pushReply w s) :=
  ⟨hinv.secret, hinv.config, hinv.status, hinv.result⟩

/-- Settles O14: each part of the invariant is evaluated on the reset values. -/
theorem resetMeetsTheInvariant : Obligations.ResetMeetsTheInvariant := by
  unfold Obligations.ResetMeetsTheInvariant
  exact ⟨by decide, by decide, by decide, by decide⟩

theorem machineInv_applyReset (s : State) : MachineInv (applyReset s) := by
  obtain ⟨-, hconfig, hstatus, hresult⟩ := resetMeetsTheInvariant
  exact ⟨rfl, hconfig, hstatus, hresult⟩

/-- Settles O15: a step is one of those of `step_cases`, and each kind of step keeps the invariant. -/
theorem stepKeepsTheInvariant : Obligations.StepKeepsTheInvariant := by
  unfold Obligations.StepKeepsTheInvariant
  intro s hinv
  have htaken := machineInv_withPending hinv
  obtain ⟨-, hstep⟩ | ⟨ix, rest, -, hstep⟩ | ⟨w, rest, i, -, -, hstep⟩ | ⟨w, rest, e, -, -, hstep⟩ |
    ⟨ix, w, rest, -, -, hstep⟩ | ⟨rest, -, hstep⟩ := step_cases s
  · exact ⟨s, hstep, hinv⟩
  · exact ⟨_, hstep, machineInv_pushReply (htaken rest) _⟩
  · obtain ⟨t, ht, hresult⟩ := exec_result i { s with pending := rest }
    exact ⟨t, hstep.trans ht, machineInv_of_execResult hresult (htaken rest)⟩
  · exact ⟨_, hstep, machineInv_illegalCommand (htaken rest)⟩
  · exact ⟨_, hstep, machineInv_storePlace w (offsetOf ix) (htaken rest)⟩
  · exact ⟨_, hstep, machineInv_applyReset _⟩

end Sys2Proof.Proofs
end

section
/-! The host port (20_memory.md R41 to R47): what each access of the stream does, what an offset reads as, and what a
write to it stores. -/

namespace Sys2Proof.Proofs

open Sys2Proof Sys2Proof.Machine Sys2Proof.Safety

/-! ### Steps -/

/-- Settles O1: fifteen words, each decoded by the table. -/
theorem commandWordsDecode : Obligations.CommandWordsDecode := by
  unfold Obligations.CommandWordsDecode
  decide

section
variable {s : State} {rest : List HostEvent}

/-- A step that takes a `CMD` write runs the word on the state with the access taken (20_memory.md R42). -/
theorem step_cmdWrite {w : Word} (h : s.pending = .write 0 w :: rest) :
    step s = runCommand w { s with pending := rest } :=
  (step_event s _ rest h).trans (hostWrite_cmd w _)

/-- A step that takes any other write stores at the place of its offset (20_memory.md R43). -/
theorem step_store {ix : WordIndex} {w : Word} (hix : ix ≠ 0) (h : s.pending = .write ix w :: rest) :
    step s = .next (storePlace w { s with pending := rest } (placeAt s.params (offsetOf ix))) :=
  (step_event s _ rest h).trans (hostWrite_store hix w _)

/-- A read looks at the registers and the parameters, and not at the stream. -/
theorem hostRead_withPending (s : State) (rest : List HostEvent) (ix : WordIndex) :
    hostRead { s with pending := rest } ix = hostRead s ix := by
  unfold hostRead
  cases placeAt s.params (offsetOf ix) <;> rfl

/-- A step that takes a read answers the word read, and nothing else changes (20_memory.md R43). -/
theorem step_read {ix : WordIndex} (h : s.pending = .read ix :: rest) :
    step s = .next (pushReply (hostRead s ix) { s with pending := rest }) := by
  rw [step_event s _ rest h, ← hostRead_withPending s rest]
  rfl

theorem step_reset (h : s.pending = .reset :: rest) : step s = .next (applyReset { s with pending := rest }) :=
  step_event s _ rest h

end

/-- Settles O3: the step runs the word written, and that word is the command's. -/
theorem stepRunsTheCommandWritten : Obligations.StepRunsTheCommandWritten := by
  unfold Obligations.StepRunsTheCommandWritten
  exact fun s w rest i h hdecode => (step_cmdWrite h).trans (runCommand_ok hdecode _)

/-- The words of the commands have no bit above the opcode, which is a listed one. -/
theorem encode_isListed (i : Instr) : ¬ (2 ^ 8 ≤ (encode i).toNat ∨
    (encode i).toNat % 2 ^ 8 ∉ [0x01, 0x02, 0x03, 0x04, 0x10, 0x11, 0x12, 0x13, 0x14]) := by
  cases i <;> decide

/-- Settles O4: an illegal word is the word of no command, so the decoder rejects it. -/
theorem illegalWordOnlyReports : Obligations.IllegalWordOnlyReports := by
  unfold Obligations.IllegalWordOnlyReports
  intro s w rest h hillegal
  rw [step_cmdWrite h]
  cases hdecode : decode w with
  | ok i =>
    rw [eq_encode_of_decode hdecode] at hillegal
    exact absurd hillegal (encode_isListed i)
  | error e =>
    rw [runCommand_error hdecode]
    rfl

/-- Settles O5: the step is `step_read`. -/
theorem readChangesNoRegister : Obligations.ReadChangesNoRegister := by
  unfold Obligations.ReadChangesNoRegister
  exact fun s ix rest h => step_read h

/-- Settles O12: `step_idle` and `step_reset`. -/
theorem idleAndResetSteps : Obligations.IdleAndResetSteps := by
  unfold Obligations.IdleAndResetSteps
  exact fun s => ⟨step_idle s, fun rest h => step_reset h⟩

/-- Settles O10: the step is a store, which keeps results, configuration and parameters by `storePlace_frame`. -/
theorem operandWritesKeepResultsAndConfig : Obligations.OperandWritesKeepResultsAndConfig := by
  unfold Obligations.OperandWritesKeepResultsAndConfig
  intro s ix w rest hix h
  obtain ⟨hconfig, hresults, houtside⟩ :=
    storePlace_frame w { s with pending := rest } (placeAt s.params (offsetOf ix))
  exact ⟨_, step_store hix h, hresults, hconfig, houtside⟩

/-! ### The secret has no read path (10_state.md R22) -/

theorem hostRead_withSecret (s : State) (m : Memory) (ix : WordIndex) :
    hostRead { s with secret := m } ix = hostRead s ix := by
  unfold hostRead
  cases placeAt s.params (offsetOf ix) <;> rfl

/-- A store puts the same values beside the secret, whatever the secret holds. -/
theorem exists_storePlace_withSecret (w : Word) (s : State) (m : Memory) (pl : Place) :
    ∃ m', storePlace w { s with secret := m } pl = { storePlace w s pl with secret := m' } := by
  cases pl
  case secretW k => exact ⟨Memory.writeWord m k w, rfl⟩
  all_goals exact ⟨m, rfl⟩

/-- Settles O11: neither the word read nor the value stored outside the secret depends on the secret. -/
theorem secretIsNotReadable : Obligations.SecretIsNotReadable := by
  unfold Obligations.SecretIsNotReadable
  intro s m ev rest h hcmd
  have h' : { s with secret := m }.pending = ev :: rest := h
  cases ev with
  | read ix =>
    refine ⟨_, m, step_read h, ?_⟩
    rw [step_read h', hostRead_withSecret]
    rfl
  | write ix w =>
    have hix : ix ≠ 0 := fun h0 => hcmd w (by rw [h0])
    obtain ⟨m', hm'⟩ :=
      exists_storePlace_withSecret w { s with pending := rest } m (placeAt s.params (offsetOf ix))
    exact ⟨_, m', step_store hix h, (step_store hix h').trans (congrArg _ hm')⟩
  | reset => exact ⟨_, [], step_reset h, step_reset h'⟩

/-! ### Reads (20_memory.md R43, R44) -/

/-- Two fields of one word, the upper one from bit `n` on. -/
theorem toNat_fields {k m n W : Nat} (hi : BitVec k) (lo : BitVec m) (hhi : k + n ≤ W) (hlo : m ≤ n) :
    ((hi.setWidth W <<< n) ||| lo.setWidth W).toNat = lo.toNat + 2 ^ n * hi.toNat := by
  have hlo' : lo.toNat < 2 ^ n := lo.isLt.trans_le (Nat.pow_le_pow_right (by decide) hlo)
  have hhi' : hi.toNat * 2 ^ n < 2 ^ W :=
    calc hi.toNat * 2 ^ n < 2 ^ k * 2 ^ n := Nat.mul_lt_mul_of_pos_right hi.isLt (Nat.two_pow_pos n)
      _ = 2 ^ (k + n) := (pow_add 2 k n).symm
      _ ≤ 2 ^ W := Nat.pow_le_pow_right (by decide) hhi
  rw [BitVec.toNat_or, BitVec.toNat_shiftLeft, BitVec.toNat_setWidth_of_le (by omega),
    BitVec.toNat_setWidth_of_le (by omega), Nat.shiftLeft_eq, Nat.mod_eq_of_lt hhi', ← Nat.shiftLeft_eq,
    ← Nat.shiftLeft_add_eq_or_of_lt hlo', Nat.shiftLeft_eq]
  ring

/-- The halves of a 64-bit register make up its value (20_memory.md R44). -/
theorem toNat_loWord_add_hiWord (x : DWord) : (loWord x).toNat + 2 ^ 32 * (hiWord x).toNat = x.toNat := by
  simp only [loWord, hiWord, BitVec.extractLsb'_toNat, Nat.shiftRight_eq_div_pow]
  omega

/-- The lanes of the two words of an eight-byte buffer (20_memory.md R44). -/
theorem byteOf_laneWord_zero (v : Vector Byte 8) (k : Fin 4) : byteOf (laneWord v 0) k.val = v[k.val] :=
  byteOf_packBytes (fun k => v[k.val]) k

theorem byteOf_laneWord_one (v : Vector Byte 8) (k : Fin 4) : byteOf (laneWord v 1) k.val = v[4 + k.val] :=
  byteOf_packBytes (fun k => v[4 + k.val]) k

/-- Every offset from 0x050 on reads 0, reserved or part of the secret. -/
theorem hostRead_high (s : State) {ix : WordIndex} (h : 20 ≤ ix.toNat) : hostRead s ix = 0 := by
  rw [hostRead, placeAt_high s.params (by simp only [offsetOf]; omega)]
  split <;> rfl

/-- Settles O6: each offset up to 0x04C is a row of the address map, whose value is in its lanes. -/
theorem readsFollowTheAddressMap : Obligations.ReadsFollowTheAddressMap := by
  unfold Obligations.ReadsFollowTheAddressMap
  intro s
  have hstatus : (hostRead s 1).toNat = s.err.toNat + 2 ^ 4 * s.matchFlag.toNat := by
    have hword := toNat_fields (W := 32) (BitVec.ofBool s.matchFlag) s.err (n := 4) (by decide) (by decide)
    rwa [BitVec.toNat_ofBool] at hword
  have hcfg : (hostRead s 2).toNat = s.digits.toNat + 2 ^ 8 * s.alg.toNat :=
    toNat_fields s.alg s.digits (by decide) (by decide)
  exact ⟨rfl, hstatus, hcfg, rfl, rfl, rfl, rfl, rfl, rfl, toNat_loWord_add_hiWord s.counter,
    toNat_loWord_add_hiWord s.time, byteOf_laneWord_zero s.passIn, byteOf_laneWord_one s.passIn, rfl,
    byteOf_laneWord_zero s.passOut, byteOf_laneWord_one s.passOut, rfl, rfl, fun ix => hostRead_high s⟩

/-! ### Writes (20_memory.md R43) -/

/-- Offsets 0x050 to 0x0FC are reserved (20_memory.md R41). -/
theorem placeAt_reserved_below (p : Params) {ix : WordIndex} (hlow : 20 ≤ ix.toNat) (hhigh : ix.toNat < 64) :
    placeAt p (offsetOf ix) = .reserved := by
  simp only [offsetOf]
  rw [placeAt_high p (by omega), if_neg (by simp only [secretBase]; omega)]

/-- The offsets beyond the secret buffer are reserved (20_memory.md R41). -/
theorem placeAt_reserved_above (p : Params) {ix : WordIndex} (h : 0x100 + p.secretMax ≤ 4 * ix.toNat) :
    placeAt p (offsetOf ix) = .reserved := by
  simp only [offsetOf]
  rw [placeAt_high p (by omega), if_neg (by simp only [secretBase]; omega)]

/-- From offset 0x100 on, each word of the buffer has its offset (20_memory.md R41). -/
theorem placeAt_secretWord {p : Params} {ix : WordIndex} (hlow : 64 ≤ ix.toNat)
    (hhigh : 4 * ix.toNat < 0x100 + p.secretMax) : placeAt p (offsetOf ix) = .secretW (ix.toNat - 64) := by
  simp only [offsetOf]
  rw [placeAt_high p (by omega), if_pos (by simp only [secretBase]; omega)]
  simp only [secretBase, Place.secretW.injEq]
  omega

theorem index_ne_zero {ix : WordIndex} (h : 20 ≤ ix.toNat) : ix ≠ 0 := by
  rintro rfl
  exact absurd h (by decide)

/-- A write to a reserved offset is ignored (20_memory.md R43). -/
theorem hostWrite_of_reserved {s : State} {ix : WordIndex} (hix : 20 ≤ ix.toNat)
    (h : placeAt s.params (offsetOf ix) = .reserved) (w : Word) : hostWrite ix w s = .next s := by
  rw [hostWrite_store (index_ne_zero hix), h]
  rfl

/-- The written half of a 64-bit register holds the word, and the other half stays (20_memory.md R43). -/
theorem halves_withLoWord (x : DWord) (w : Word) :
    loWord (withLoWord x w) = w ∧ hiWord (withLoWord x w) = hiWord x :=
  ⟨loWord_joinWords _ _, hiWord_joinWords _ _⟩

theorem halves_withHiWord (x : DWord) (w : Word) :
    hiWord (withHiWord x w) = w ∧ loWord (withHiWord x w) = loWord x :=
  ⟨hiWord_joinWords _ _, loWord_joinWords _ _⟩

/-- A word of a buffer holds the bytes written to it, and the other word's bytes stay (20_memory.md R44). -/
theorem bytes_withLaneWord_zero (v : Vector Byte 8) (w : Word) (k : Fin 4) :
    (withLaneWord v 0 w)[k.val] = byteOf w k.val ∧ (withLaneWord v 0 w)[4 + k.val] = v[4 + k.val] := by
  constructor
  · rw [withLaneWord_getElem, if_pos (by simp only [Fin.val_zero]; omega), Nat.mod_eq_of_lt k.isLt]
  · rw [withLaneWord_getElem, if_neg (by simp only [Fin.val_zero]; omega)]

theorem bytes_withLaneWord_one (v : Vector Byte 8) (w : Word) (k : Fin 4) :
    (withLaneWord v 1 w)[4 + k.val] = byteOf w k.val ∧ (withLaneWord v 1 w)[k.val] = v[k.val] := by
  constructor
  · rw [withLaneWord_getElem, if_pos (by simp only [Fin.val_one]; omega), Nat.add_mod_left, Nat.mod_eq_of_lt k.isLt]
  · rw [withLaneWord_getElem, if_neg (by simp only [Fin.val_one]; omega)]

/-- Settles O7: each offset up to 0x04C is a row of the address map, and the rest is reserved. -/
theorem writesFollowTheAddressMap : Obligations.WritesFollowTheAddressMap := by
  unfold Obligations.WritesFollowTheAddressMap
  intro s w
  refine ⟨fun ix hix => ?readOnly, rfl, rfl, rfl, rfl, ⟨_, rfl, halves_withLoWord s.counter w⟩,
    ⟨_, rfl, halves_withHiWord s.counter w⟩, ⟨_, rfl, halves_withLoWord s.time w⟩,
    ⟨_, rfl, halves_withHiWord s.time w⟩, ⟨_, rfl, bytes_withLaneWord_zero s.passIn w⟩,
    ⟨_, rfl, bytes_withLaneWord_one s.passIn w⟩, rfl, rfl, fun ix hlow hhigh => ?below, fun ix habove => ?above⟩
  case readOnly =>
    simp only [List.mem_cons, List.not_mem_nil, or_false] at hix
    obtain rfl | rfl | rfl | rfl | rfl | rfl | rfl := hix <;> rfl
  case below => exact hostWrite_of_reserved hlow (placeAt_reserved_below _ hlow hhigh) w
  case above => exact hostWrite_of_reserved (by omega) (placeAt_reserved_above _ habove) w

/-- Settles O8: the offset is a word of the buffer, and `Memory.read_writeWord` says what every byte then reads as. -/
theorem secretWordWriteStoresItsBytes : Obligations.SecretWordWriteStoresItsBytes := by
  unfold Obligations.SecretWordWriteStoresItsBytes
  intro s ix w hlow hhigh hwf
  refine ⟨Memory.writeWord s.secret (ix.toNat - 64) w, ?stored, Memory.wf_writeWord _ _ _ hwf, fun j hj => ?inside,
    fun a ha => ?outside⟩
  case stored =>
    rw [hostWrite_store (index_ne_zero (by omega)), placeAt_secretWord hlow hhigh]
    rfl
  case inside =>
    rw [Memory.read_writeWord _ _ _ _ hwf, if_pos (by omega), Nat.add_sub_cancel_left]
    rfl
  case outside => rw [Memory.read_writeWord _ _ _ _ hwf, if_neg (by omega)]

/-! ### Writing twice (20_memory.md R47) -/

theorem wfFrom_cons_iff {lo k : Nat} {v : Byte} {m : Memory} :
    Memory.wfFrom lo ((k, v) :: m) = true ↔ lo ≤ k ∧ v ≠ 0 ∧ Memory.wfFrom (k + 1) m = true := by
  simp only [Memory.wfFrom, unlistedByte, Bool.and_eq_true, decide_eq_true_eq, bne_iff_ne, and_assoc]

theorem read_head (k : Nat) (v : Byte) (m : Memory) : Memory.read ((k, v) :: m) k = v := if_pos rfl

/-- Nothing before the head of a canonical buffer reads as anything but 0. -/
theorem head_le_of_read_ne_zero {lo k a : Nat} {v : Byte} {m : Memory} (hwf : Memory.wfFrom lo ((k, v) :: m) = true)
    (ha : Memory.read ((k, v) :: m) a ≠ 0) : k ≤ a := by
  by_contra hlt
  obtain ⟨-, hv, hm⟩ := wfFrom_cons_iff.mp hwf
  exact ha (Memory.read_below _ k a (wfFrom_cons_iff.mpr ⟨le_rfl, hv, hm⟩) (by omega))

/-- Canonical buffers that read alike are the same list. -/
theorem memory_eq_of_read_eq : ∀ (m m' : Memory) (lo lo' : Nat), Memory.wfFrom lo m = true →
    Memory.wfFrom lo' m' = true → (∀ a, Memory.read m a = Memory.read m' a) → m = m'
  | [], [], _, _, _, _, _ => rfl
  | [], (k, v) :: m', _, _, _, hwf', hread => by
    obtain ⟨-, hv, -⟩ := wfFrom_cons_iff.mp hwf'
    exact absurd ((hread k).trans (read_head k v m')).symm hv
  | (k, v) :: m, [], _, _, hwf, _, hread => by
    obtain ⟨-, hv, -⟩ := wfFrom_cons_iff.mp hwf
    exact absurd ((read_head k v m).symm.trans (hread k)) hv
  | (k, v) :: m, (k', v') :: m', _, _, hwf, hwf', hread => by
    obtain ⟨-, hv, hm⟩ := wfFrom_cons_iff.mp hwf
    obtain ⟨-, hv', hm'⟩ := wfFrom_cons_iff.mp hwf'
    have hle : k' ≤ k := head_le_of_read_ne_zero hwf' (by rwa [← hread, read_head])
    have hge : k ≤ k' := head_le_of_read_ne_zero hwf (by rwa [hread, read_head])
    obtain rfl := hle.antisymm hge
    obtain rfl : v = v' := by rw [← read_head k' v m, hread, read_head]
    have htail : ∀ a, Memory.read m a = Memory.read m' a := by
      intro a
      by_cases ha : a ≤ k'
      · rw [Memory.read_below m (k' + 1) a hm (by omega), Memory.read_below m' (k' + 1) a hm' (by omega)]
      · have hread' := hread a
        rwa [Memory.read_cons, Memory.read_cons, if_neg (by omega), if_neg (by omega)] at hread'
    rw [memory_eq_of_read_eq m m' _ _ hm hm' htail]

theorem writeWord_writeWord (m : Memory) (k : Nat) (w : Word) (hwf : Memory.wf m = true) :
    Memory.writeWord (Memory.writeWord m k w) k w = Memory.writeWord m k w := by
  have hwf' := Memory.wf_writeWord m k w hwf
  refine memory_eq_of_read_eq _ _ 0 0 (Memory.wf_writeWord _ k w hwf') hwf' fun a => ?_
  rw [Memory.read_writeWord _ k w a hwf', Memory.read_writeWord _ k w a hwf]
  split <;> rfl

theorem withLoWord_withLoWord (x : DWord) (w : Word) : withLoWord (withLoWord x w) w = withLoWord x w := by
  simp only [withLoWord, hiWord_joinWords]

theorem withHiWord_withHiWord (x : DWord) (w : Word) : withHiWord (withHiWord x w) w = withHiWord x w := by
  simp only [withHiWord, loWord_joinWords]

theorem withLaneWord_withLaneWord (v : Vector Byte 8) (w : Fin 2) (x : Word) :
    withLaneWord (withLaneWord v w x) w x = withLaneWord v w x := by
  ext i hi
  simp only [withLaneWord_getElem]
  split <;> rfl

/-- A stored value does not depend on the value it replaces, except for what it keeps of it. -/
theorem storePlace_storePlace {s : State} (w : Word) (pl : Place) (hwf : Memory.wf s.secret = true) :
    storePlace w (storePlace w s pl) pl = storePlace w s pl := by
  cases pl
  case counterLo => simp only [storePlace, withLoWord_withLoWord]
  case counterHi => simp only [storePlace, withHiWord_withHiWord]
  case timeLo => simp only [storePlace, withLoWord_withLoWord]
  case timeHi => simp only [storePlace, withHiWord_withHiWord]
  case passIn0 => simp only [storePlace, withLaneWord_withLaneWord]
  case passIn1 => simp only [storePlace, withLaneWord_withLaneWord]
  case secretW k => simp only [storePlace, writeWord_writeWord _ k w hwf]
  all_goals rfl

/-- Settles O9: the second write goes to the same place, where `storePlace_storePlace` leaves what is there. -/
theorem writesAreIdempotent : Obligations.WritesAreIdempotent := by
  unfold Obligations.WritesAreIdempotent
  intro s ix w hix hwf
  obtain ⟨-, -, hparams, -⟩ := storePlace_frame w s (placeAt s.params (offsetOf ix))
  refine ⟨_, hostWrite_store hix w s, ?_⟩
  rw [hostWrite_store hix, hparams, storePlace_storePlace w _ hwf]

end Sys2Proof.Proofs
end

section
/-! What the results of the engine commands depend on (41_hotp.md R89, 42_totp.md R103 to R105, 70_reset_and_hazards.md
R202): two runs are compared through their checks, and the consequences of the commands' rules are drawn. -/

namespace Sys2Proof.Proofs

open Sys2Proof Sys2Proof.Machine Sys2Proof.Safety

/-! ### After reset -/

/-- Settles O16: the reset configuration is not legal, and the length and the time decide the rest of each rule. -/
theorem commandsDirectlyAfterReset : Obligations.CommandsDirectlyAfterReset := by
  unfold Obligations.CommandsDirectlyAfterReset
  intro n t s
  have hconfig : ¬ configLegal s := fun ⟨hdigits, _⟩ =>
    (by decide : ¬ (State.reset.digits = 6 ∨ State.reset.digits = 8)) hdigits
  have hperiod : s.period ≠ 0 := (by decide : periodDefault ≠ 0)
  have hlength : lengthMatches s ↔ n = 0 := BitVec.toNat_inj (y := 0#8)
  refine ⟨?gen, ?val, ?totp, ?ctr⟩
  case gen => rw [exec_hotpGen, engineChecks_of_not_configLegal hconfig]
  case val =>
    split
    case isTrue hn => rw [exec_hotpVal_of_lengthMatches (hlength.mpr hn), engineChecks_of_not_configLegal hconfig]
    case isFalse hn => exact exec_hotpVal_of_not_lengthMatches (mt hlength.mp hn)
  case totp =>
    split
    case isTrue hn =>
      rw [exec_totpVal_of_lengthMatches hperiod (hlength.mpr hn), engineChecks_of_not_configLegal hconfig]
    case isFalse hn => exact exec_totpVal_of_not_lengthMatches hperiod (mt hlength.mp hn)
  case ctr =>
    obtain ⟨-, hctr⟩ := totpCtrRule
    obtain ⟨c, hfloor, hexec⟩ := (hctr s).2 hperiod
    refine ⟨sint64 c, hfloor, ?_⟩
    rw [hexec, sint64, BitVec.ofInt_toInt]

/-! ### The passcode (41_hotp.md R82) -/

/-- A digit below the modulus is that of the whole number. -/
theorem mod_pow_digit (n : Nat) {d j : Nat} (hj : j < d) : n % 10 ^ d / 10 ^ j % 10 = n / 10 ^ j % 10 := by
  have hsplit : 10 ^ d = 10 ^ j * 10 ^ (d - j) := by rw [← pow_add, Nat.add_sub_cancel' hj.le]
  rw [hsplit, Nat.mod_mul_right_div_self]
  exact Nat.mod_mod_of_dvd _ (dvd_pow_self 10 (by omega))

/-- The characters of a passcode are decimal digits of the truncated value itself. -/
theorem formatCode_codeOf (p : Word) (d : DigitCount) :
    formatCode (codeOf p d) d =
      (List.range d.toNat).map fun i => asciiDigit (p.toNat / 10 ^ (d.toNat - 1 - i) % 10) := by
  refine List.map_congr_left fun i hi => ?_
  rw [List.mem_range] at hi
  rw [codeOf, mod_pow_digit _ (by omega)]

/-- Settles O21: both passcodes are digits of one truncated value, and the last six are the same ones. -/
theorem sixDigitsEndTheEightDigits : Obligations.SixDigitsEndTheEightDigits := by
  unfold Obligations.SixDigitsEndTheEightDigits
  intro alg key c r8 h
  rw [hotp_eq, Option.map_eq_some_iff] at h
  obtain ⟨p, hp, rfl⟩ := h
  rw [hotp_eq, hp, Option.map_some, formatCode_codeOf, formatCode_codeOf]
  rfl

/-! ### The round trip (41_hotp.md R89 item 1) -/

/-- `HOTP_GEN` without an error has put the passcode of its operands in the results (41_hotp.md R87). -/
theorem exists_passcode_of_hotpGen {s t : State} (h : exec .hotpGen s = .next t) (herr : t.err = 0) :
    ∃ alg d r, hasConfig s alg d ∧ secretLegal s ∧ hotp alg d (secretKey s) s.counter = some r ∧
      t = putPasscode r (clearResults s) := by
  cases execResult_of_exec h
  case error e _ => cases e <;> cases herr
  case passcode alg d r _ hc hs hr => exact ⟨alg, d, r, engineConfig_eq_some.mp hc, (secretValid_iff s).mp hs, hr, rfl⟩
  case boolean b hi => cases hi <;> contradiction
  all_goals contradiction

/-- Settles O22: the copied bytes are those of the passcode that `HOTP_VAL` computes from the same operands. -/
theorem generatedPasscodeValidates : Obligations.GeneratedPasscodeValidates := by
  unfold Obligations.GeneratedPasscodeValidates
  intro s t hexec herr
  obtain ⟨alg, d, r, hconfig, hsecret, hhotp, rfl⟩ := exists_passcode_of_hotpGen hexec herr
  intro u
  have hlength : lengthMatches u := BitVec.toNat_setWidth_of_le (by decide)
  have hsupplies : supplies u r := fun i _ => Vector.getElem_ofFn i.isLt
  obtain ⟨-, hrule⟩ := hotpValRule
  obtain ⟨-, -, -, hvalid⟩ := hrule u
  obtain ⟨-, hboolean⟩ := hvalid alg d hconfig hlength hsecret
  exact (hboolean r hhotp).1 hsupplies

/-! ### Two runs of the checks -/

/-- What holds of the continuations of the checks and of their errors holds of the checks, in two states that the checks
do not tell apart. -/
theorem engineChecks_rel {R : State → State → Prop} {s s' : State} {k k' : HashAlg → DigitCount → List Byte → State}
    (hconfig : engineConfig s' = engineConfig s) (hvalid : secretValid s' = secretValid s)
    (hkey : secretKey s' = secretKey s) (hraise : ∀ e, R (raise e s) (raise e s'))
    (hk : ∀ alg d, R (k alg d (secretKey s)) (k' alg d (secretKey s))) :
    R (engineChecks s k) (engineChecks s' k') := by
  unfold engineChecks
  rw [hconfig, hvalid, hkey]
  cases engineConfig s with
  | none => exact hraise _
  | some config =>
    cases secretValid s with
    | false => exact hraise _
    | true => exact hk _ _

/-- Settles O39: every command clears the results first. -/
theorem earlierResultsDoNotMatter : Obligations.EarlierResultsDoNotMatter := by
  unfold Obligations.EarlierResultsDoNotMatter
  intro i s e m v n
  cases i <;> rfl

/-! ### The secret proper (10_state.md R22) -/

/-- The state with another secret buffer, everything else the same. -/
abbrev withSecret (m : Memory) (s : State) : State := { s with secret := m }

section
variable {s : State} {m : Memory}

/-- The checks read the key only, so they run alike on buffers with the same key. -/
theorem engineChecks_withSecret {k k' : HashAlg → DigitCount → List Byte → State}
    (hkey : secretKey (withSecret m s) = secretKey s) (hk : ∀ alg d key, k' alg d key = withSecret m (k alg d key)) :
    engineChecks (clearResults (withSecret m s)) k' = withSecret m (engineChecks (clearResults s) k) :=
  engineChecks_rel (R := fun t t' => t' = withSecret m t) rfl rfl hkey (fun _ => rfl) (fun alg d => hk alg d _)

theorem generateResult_withSecret (r : Option (List Byte)) :
    generateResult (withSecret m s) r = withSecret m (generateResult s r) := by
  cases r <;> rfl

theorem validateResult_withSecret (r : Option (List Byte)) :
    validateResult (withSecret m s) r = withSecret m (validateResult s r) := by
  cases r <;> rfl

theorem windowOutcome_withSecret (w : WindowResult) :
    windowOutcome (withSecret m s) w = withSecret m (windowOutcome s w) := by
  cases w <;> rfl

/-- A command run on another buffer with the same key ends in the same state but for the buffer. -/
theorem exec_withSecret (i : Instr) (hkey : secretKey (withSecret m s) = secretKey s) :
    ∃ t, exec i s = .next t ∧ exec i (withSecret m s) = .next (withSecret m t) := by
  cases i with
  | hotpGen =>
    have hchecks := engineChecks_withSecret hkey fun alg d key =>
      generateResult_withSecret (s := clearResults s) (hotp alg d key s.counter)
    exact ⟨_, exec_hotpGen s, (exec_hotpGen _).trans (congrArg _ hchecks)⟩
  | hotpVal =>
    by_cases hlen : lengthMatches s
    · have hchecks := engineChecks_withSecret hkey fun alg d key =>
        validateResult_withSecret (s := clearResults s) (hotp alg d key s.counter)
      exact ⟨_, exec_hotpVal_of_lengthMatches hlen,
        (exec_hotpVal_of_lengthMatches (s := withSecret m s) hlen).trans (congrArg _ hchecks)⟩
    · exact ⟨_, exec_hotpVal_of_not_lengthMatches hlen, exec_hotpVal_of_not_lengthMatches hlen⟩
  | totpCtr =>
    by_cases hp : s.period = 0
    · exact ⟨_, if_pos hp, if_pos hp⟩
    · exact ⟨_, if_neg hp, if_neg hp⟩
  | totpVal =>
    by_cases hp : s.period = 0
    · exact ⟨_, exec_totpVal_of_period_eq_zero hp, exec_totpVal_of_period_eq_zero hp⟩
    by_cases hlen : lengthMatches s
    · have hchecks := engineChecks_withSecret hkey fun alg d key => windowOutcome_withSecret (s := clearResults s)
        (windowSearch (hotp alg d key) (passEq s) (candidates (baseCounter s) s.skew.toNat))
      exact ⟨_, exec_totpVal_of_lengthMatches hp hlen,
        (exec_totpVal_of_lengthMatches (s := withSecret m s) hp hlen).trans (congrArg _ hchecks)⟩
    · exact ⟨_, exec_totpVal_of_not_lengthMatches hp hlen, exec_totpVal_of_not_lengthMatches hp hlen⟩
  | cfgSetDigits =>
    rw [exec_cfgSetDigits, exec_cfgSetDigits]
    split <;> exact ⟨_, rfl, rfl⟩
  | cfgSetAlg =>
    rw [exec_cfgSetAlg, exec_cfgSetAlg]
    split <;> exact ⟨_, rfl, rfl⟩
  | cfgSetPeriod =>
    rw [exec_cfgSetPeriod, exec_cfgSetPeriod]
    split <;> exact ⟨_, rfl, rfl⟩
  | cfgSetSkew => exact ⟨_, rfl, rfl⟩
  | cfgNew =>
    rw [exec_cfgNew, exec_cfgNew]
    split
    · split <;> exact ⟨_, rfl, rfl⟩
    · exact ⟨_, rfl, rfl⟩

end

/-- Settles O23: buffers that agree on the secret proper have the same key, and `exec_withSecret` applies. -/
theorem onlyTheSecretProperMatters : Obligations.OnlyTheSecretProperMatters := by
  unfold Obligations.OnlyTheSecretProperMatters
  intro i s t m hread hexec
  have hkey : secretKey (withSecret m s) = secretKey s := Memory.readBytes_congr _ _ _ hread
  obtain ⟨u, hu, hu'⟩ := exec_withSecret i hkey
  rw [hexec] at hu
  cases hu
  exact hu'

/-- Equal passcodes leave equal results, the length being the digit count (41_hotp.md R87). -/
theorem sameResults_generateResult {s s' : State} (hdigits : s'.digits = s.digits) (r : Option (List Byte)) :
    SameResults (generateResult (clearResults s) r) (generateResult (clearResults s') r) := by
  cases r with
  | none => exact ⟨rfl, rfl, rfl, rfl⟩
  | some r => exact ⟨rfl, rfl, rfl, hdigits⟩

/-- Settles O24: the checks do not tell the two states apart, and go on with the same passcode. -/
theorem hotpGenReadsOnlyItsOperands : Obligations.HotpGenReadsOnlyItsOperands := by
  unfold Obligations.HotpGenReadsOnlyItsOperands
  intro s s' t t' hdigits halg hcounter hlen hparams hread hexec hexec'
  have hconfig : engineConfig s' = engineConfig s := by rw [engineConfig, engineConfig, hdigits, halg]
  have hvalid : secretValid s' = secretValid s := by rw [secretValid, secretValid, hlen, hparams]
  have hkey : secretKey s' = secretKey s := by
    rw [secretKey, secretKey, hlen]
    exact Memory.readBytes_congr _ _ _ hread
  rw [exec_hotpGen] at hexec hexec'
  cases hexec
  cases hexec'
  rw [hcounter]
  exact engineChecks_rel (R := SameResults) hconfig hvalid hkey (fun _ => ⟨rfl, rfl, rfl, rfl⟩)
    fun alg d => sameResults_generateResult hdigits _

/-! ### The window (42_totp.md R103 to R105) -/

/-- The loop with its flag: a match wins over a fault, an earlier fault counts as one (42_totp.md R104). -/
theorem windowScan_eq (h : DWord → Option (List Byte)) (eq : List Byte → Bool) (faulted : Bool) (cs : List DWord) :
    windowScan h eq faulted cs =
      if cs.any fun c => (h c).any eq then .matched
      else if faulted || cs.any fun c => (h c).isNone then .faulted
      else .unmatched := by
  induction cs generalizing faulted with
  | nil => simp [windowScan]
  | cons c cs ih =>
    cases hc : h c with
    | none => simp [windowScan, hc, ih]
    | some r => cases hr : eq r <;> simp [windowScan, hc, hr, ih]

theorem windowSearch_perm (h : DWord → Option (List Byte)) (eq : List Byte → Bool) {cs cs' : List DWord}
    (hperm : cs.Perm cs') : windowSearch h eq cs = windowSearch h eq cs' := by
  rw [windowSearch, windowSearch, hperm.any_eq, hperm.any_eq]

/-- Settles O28: without an earlier fault the loop is the search, which does not see the order. -/
theorem windowLoopInAnyOrder : Obligations.WindowLoopInAnyOrder := by
  unfold Obligations.WindowLoopInAnyOrder
  intro h eq cs cs' hperm
  rw [windowSearch_perm h eq hperm, windowScan_eq, Bool.false_or]
  rfl

/-- Settles O30: a step of the window is a counter of the window, so the first result of the rule applies. -/
theorem totpValAcceptsTheWholeWindow : Obligations.TotpValAcceptsTheWholeWindow := by
  unfold Obligations.TotpValAcceptsTheWholeWindow
  intro s alg d j r hp hconfig hsecret hlen hlow hhigh hhotp hsupplies
  obtain ⟨-, hrule⟩ := totpValRule
  obtain ⟨-, -, -, -, hwindow⟩ := hrule s
  obtain ⟨hmatched, -⟩ := hwindow alg d _ hp hlen hconfig hsecret ((isFloor_sint64_iff hp).mpr rfl)
  exact hmatched ⟨_, r, ⟨j, hlow, hhigh, rfl⟩, hhotp, hsupplies⟩

theorem windowOutcome_withTime (s : State) (v : DWord) (w : WindowResult) :
    windowOutcome { s with time := v } w = { windowOutcome s w with time := v } := by
  cases w <;> rfl

/-- Settles O31: times of one step have the same base counter, and `TOTP_VAL` reads `TIME` only for that. -/
theorem oneTimeStepOneResult : Obligations.OneTimeStepOneResult := by
  unfold Obligations.OneTimeStepOneResult
  intro s t v q hfloor hfloor' hexec
  by_cases hp : s.period = 0
  · rw [exec_totpVal_of_period_eq_zero hp] at hexec
    cases hexec
    exact exec_totpVal_of_period_eq_zero hp
  by_cases hlen : lengthMatches s
  · have hpos := one_le_toNat_of_ne_zero hp
    have hbase : baseCounter { s with time := v } = baseCounter s :=
      congrArg (BitVec.ofInt 64)
        (((isFloor_iff_eq_fdiv hpos).mp hfloor').symm.trans ((isFloor_iff_eq_fdiv hpos).mp hfloor))
    rw [exec_totpVal_of_lengthMatches hp hlen] at hexec
    cases hexec
    refine (exec_totpVal_of_lengthMatches (s := { s with time := v }) hp hlen).trans ?_
    rw [hbase]
    exact congrArg _ (engineChecks_rel (R := fun t t' => t' = { t with time := v }) rfl rfl rfl (fun _ => rfl)
      fun alg d => windowOutcome_withTime (clearResults s) v _)
  · rw [exec_totpVal_of_not_lengthMatches hp hlen] at hexec
    cases hexec
    exact exec_totpVal_of_not_lengthMatches hp hlen

/-- A window of one candidate reports what `HOTP_VAL` reports of it (42_totp.md R104, 41_hotp.md R88). -/
theorem windowOutcome_singleton (s : State) (h : DWord → Option (List Byte)) (c : DWord) :
    windowOutcome (clearResults s) (windowSearch h (passEq s) [c]) = validateResult (clearResults s) (h c) := by
  cases hc : h c with
  | none => simp [windowSearch, hc, windowOutcome, validateResult]
  | some r =>
    rw [validateResult_clearResults_some]
    cases hr : passEq s r <;> simp [windowSearch, hc, hr] <;> rfl

theorem validateResult_withCounter (s : State) (c : DWord) (r : Option (List Byte)) :
    validateResult s r = { validateResult { s with counter := c } r with counter := s.counter } := by
  cases r <;> rfl

/-- Settles O32: the window is the one counter of the time, and `HOTP_VAL` reads `COUNTER` only for its passcode. -/
theorem skewZeroIsPlainHotp : Obligations.SkewZeroIsPlainHotp := by
  unfold Obligations.SkewZeroIsPlainHotp
  intro s t hskew hp hexec
  by_cases hlen : lengthMatches s
  · cases (exec_hotpVal_of_lengthMatches (s := { s with counter := baseCounter s }) hlen).symm.trans hexec
    have hwindow : candidates (baseCounter s) s.skew.toNat = [baseCounter s] := by
      rw [hskew]
      rfl
    rw [exec_totpVal_of_lengthMatches hp hlen, hwindow]
    refine congrArg _ (engineChecks_rel (R := fun t t' => t = { t' with counter := s.counter }) rfl rfl rfl
      (fun _ => rfl) fun alg d => ?_)
    exact (windowOutcome_singleton s _ _).trans (validateResult_withCounter (clearResults s) _ _)
  · cases (exec_hotpVal_of_not_lengthMatches (s := { s with counter := baseCounter s }) hlen).symm.trans hexec
    exact exec_totpVal_of_not_lengthMatches hp hlen

end Sys2Proof.Proofs
end

section
/-! Lengths and padding (48_hmac_hash.md R140 to R142). -/

namespace Sys2Proof.Proofs

open Sys2Proof Sys2Proof.Machine

/-- Settles O43: each length is `digest_length` at its algorithm, and HMAC's is that of its outer digest. -/
theorem digestAndHmacLengths : Obligations.DigestAndHmacLengths := by
  unfold Obligations.DigestAndHmacLengths
  exact ⟨digest_length .sha1, digest_length .sha256, digest_length .sha512, digest_length .md5, hmac_length⟩

/-- The zeros of the padding complete the last block (48_hmac_hash.md R142). -/
theorem dvd_add_padZeros (blk lenBytes n : Nat) (hblk : 0 < blk) :
    blk ∣ n + 1 + lenBytes + padZeros blk lenBytes n := by
  have hlt := Nat.mod_lt (n + 1 + lenBytes) hblk
  have hcomplete : n + 1 + lenBytes + (blk - (n + 1 + lenBytes) % blk) =
      blk * ((n + 1 + lenBytes) / blk) + blk := by
    have hdiv := Nat.div_add_mod (n + 1 + lenBytes) blk
    omega
  rw [padZeros, Nat.dvd_iff_mod_eq_zero, Nat.add_mod_mod, hcomplete, Nat.add_mod_right, Nat.mul_mod_right]

theorem padMessage_length (bigEndian : Bool) (blk lenBytes : Nat) (m : List Byte) :
    (padMessage bigEndian blk lenBytes m).length = m.length + 1 + lenBytes + padZeros blk lenBytes m.length := by
  simp only [padMessage, List.length_append, List.length_cons, List.length_nil, List.length_replicate,
    lengthBytes_length]
  omega

/-- Settles O45: the zeros are `padZeros`, a remainder by the block, and `dvd_add_padZeros` counts the blocks. -/
theorem paddingFillsWholeBlocks : Obligations.PaddingFillsWholeBlocks := by
  unfold Obligations.PaddingFillsWholeBlocks
  intro bigEndian blk lenBytes m hblk
  refine ⟨padZeros blk lenBytes m.length, Nat.mod_lt _ hblk, rfl, ?_, lengthBytes_length _ _ _⟩
  rw [padMessage_length]
  exact dvd_add_padZeros blk lenBytes m.length hblk

end Sys2Proof.Proofs
end

section
/-! Host scripts (30_encoding.md R65, R66): an access at a time, each stored at its place or run as its command; the
words of a secret by induction over their list. -/

namespace Sys2Proof.Proofs

open Sys2Proof Sys2Proof.Machine Sys2Proof.Safety

/-! ### Commands in scripts -/

/-- The access of a command runs it (30_encoding.md R65). -/
theorem serve_cmd (i : Instr) (s : State) : serve (Script.cmd i) s = exec i s :=
  (hostWrite_cmd (encode i) s).trans (runCommand_ok (decode_encode i) s)

/-- An argument in `ARG0` and a command that takes it. -/
theorem run_setter {s : State} {x : Word} {i : Instr} (h : s.pending = [Script.wr 0x014 x, Script.cmd i]) :
    Sys2Proof.core.run 2 s = exec i { s with arg0 := x, pending := [] } :=
  (run_store .arg0 h rfl (by decide)).trans (run_cmd_last rfl)

/-- Settles O49: each script is `run_setter` at its command. -/
theorem setterScriptsRunTheirSetters : Obligations.SetterScriptsRunTheirSetters := by
  unfold Obligations.SetterScriptsRunTheirSetters
  exact fun _ _ => ⟨run_setter, run_setter, run_setter, run_setter⟩

/-- A number that fits in 32 bits is stored in a narrower field modulo its size (20_memory.md R43). -/
theorem extractLsb'_ofNat (n : Nat) {k : Nat} (hk : k ≤ 32) :
    (BitVec.ofNat 32 n).extractLsb' 0 k = BitVec.ofNat k n := by
  apply BitVec.eq_of_toNat_eq
  rw [BitVec.extractLsb'_toNat, Nat.shiftRight_zero, BitVec.toNat_ofNat, BitVec.toNat_ofNat]
  exact Nat.mod_mod_of_dvd n (Nat.pow_dvd_pow 2 hk)

/-- A legal configuration is stored as given (43_config.md R124). -/
theorem hasConfig_of_fields {s : State} {d : DigitCount} {alg : HashAlg} (hd : s.digits = BitVec.ofNat 4 d.toNat)
    (ha : s.alg = BitVec.ofNat 3 alg.number) : hasConfig s alg d := by
  rw [hasConfig, hd, ha]
  constructor
  · cases d <;> rfl
  · cases alg <;> rfl

/-- `CFG_NEW` with the numbers of a digit count and an algorithm, and a period (43_config.md R124). -/
theorem exec_cfgNew_of_legal {s : State} {d : DigitCount} {alg : HashAlg} (hd : s.arg0 = BitVec.ofNat 32 d.toNat)
    (ha : s.arg1 = BitVec.ofNat 32 alg.number) (hp : s.arg2 ≠ 0) :
    exec .cfgNew s = .next { reported s 0 false with
      digits := BitVec.ofNat 4 d.toNat, alg := BitVec.ofNat 3 alg.number, period := s.arg2, skew := s.arg3 } := by
  have hdigits : s.arg0 = 6 ∨ s.arg0 = 8 := by
    rw [hd]
    cases d <;> decide
  have halg : 1 ≤ s.arg1.toNat ∧ s.arg1.toNat ≤ 4 := by
    rw [ha]
    cases alg <;> decide
  rw [exec_cfgNew, if_pos ⟨hdigits, halg⟩, if_pos hp]
  simp only [setDigits, setAlg, setPeriod, setSkew, clearResults, hd, ha, extractLsb'_ofNat _ (by decide : 4 ≤ 32),
    extractLsb'_ofNat _ (by decide : 3 ≤ 32)]

/-- Settles O48: four stores, then `CFG_NEW` with legal arguments. -/
theorem configScriptConfigures : Obligations.ConfigScriptConfigures := by
  unfold Obligations.ConfigScriptConfigures
  intro s d alg p k hp h
  have hrun : Sys2Proof.core.run 5 s = exec .cfgNew { s with
      arg0 := BitVec.ofNat 32 d.toNat, arg1 := BitVec.ofNat 32 alg.number, arg2 := p, arg3 := k, pending := [] } := by
    rw [run_store .arg0 h rfl (by decide), run_store .arg1 rfl rfl (by decide), run_store .arg2 rfl rfl (by decide),
      run_store .arg3 rfl rfl (by decide)]
    exact run_cmd_last rfl
  exact ⟨_, hrun.trans (exec_cfgNew_of_legal rfl rfl hp), hasConfig_of_fields rfl rfl, rfl⟩

/-- Settles O50: `TOTP_CTR` stores the counter of the time, and `HOTP_GEN` does not see what else it leaves. -/
theorem totpGenScriptIsHotpAtTheTimeCounter : Obligations.TotpGenScriptIsHotpAtTheTimeCounter := by
  unfold Obligations.TotpGenScriptIsHotpAtTheTimeCounter
  intro s c hp h hfloor
  have hcounter : baseCounter s = c := ((isFloor_sint64_iff hp).mp hfloor).symm
  have hctr : serve (Script.cmd .totpCtr) { s with pending := [Script.cmd .hotpGen] } =
      .next (setCounter (baseCounter s) (clearResults { s with pending := [Script.cmd .hotpGen] })) :=
    (serve_cmd _ _).trans (if_neg hp)
  rw [run_event h hctr, run_cmd_last rfl, hcounter]
  exact earlierResultsDoNotMatter .hotpGen { s with counter := c, pending := [] } _ _ _ _

/-! ### Operands in scripts -/

/-- Both halves of a 64-bit register, the lower one first. -/
theorem withHiWord_withLoWord (x y : DWord) : withHiWord (withLoWord x (loWord y)) (hiWord y) = y := by
  rw [withHiWord, (halves_withLoWord x (loWord y)).1, joinWords_hiWord_loWord]

/-- Both words of `PASS_IN` from a passcode: its first eight characters, and 0 for missing ones. -/
theorem withLaneWord_packWords (v : Vector Byte 8) (cs : List Byte) :
    withLaneWord (withLaneWord v 0 (Script.packWord cs 0)) 1 (Script.packWord cs 1) =
      Vector.ofFn fun i : Fin 8 => cs.getD i.val 0 := by
  ext i hi
  rw [Vector.getElem_ofFn, withLaneWord_getElem, withLaneWord_getElem]
  split
  case isTrue hupper =>
    have hplace : 4 * 1 + i % 4 = i := by rw [Fin.val_one] at hupper; omega
    rw [byteOf_packWord _ _ _ (Nat.mod_lt i (by decide)), hplace]
  case isFalse hlower =>
    have hword : i / 4 = 0 := by rw [Fin.val_one] at hlower; omega
    have hplace : 4 * 0 + i % 4 = i := by omega
    rw [Fin.val_zero, if_pos hword, byteOf_packWord _ _ _ (Nat.mod_lt i (by decide)), hplace]

/-- Settles O47: each access stores its half or its word, and the halves and words make up the operand. -/
theorem operandScriptsSetTheirRegisters : Obligations.OperandScriptsSetTheirRegisters := by
  unfold Obligations.OperandScriptsSetTheirRegisters
  intro s
  refine ⟨fun c h => ?counter, fun t h => ?time, fun cs h => ?passcode⟩
  case counter =>
    rw [run_store .counterLo h rfl (by decide), run_store .counterHi rfl rfl (by decide)]
    simp only [storePlace, withHiWord_withLoWord]
    rfl
  case time =>
    rw [run_store .timeLo h rfl (by decide), run_store .timeHi rfl rfl (by decide)]
    simp only [storePlace, withHiWord_withLoWord]
    rfl
  case passcode =>
    rw [run_store .passIn0 h rfl (by decide), run_store .passIn1 rfl rfl (by decide),
      run_store .passLen rfl rfl (by decide)]
    simp only [storePlace, withLaneWord_packWords, extractLsb'_ofNat _ (by decide : 8 ≤ 32)]
    rfl

/-! ### The secret -/

/-- The buffer after the words of these numbers of a secret are written, in this order (30_encoding.md R66). -/
def storeWords (bs : List Byte) (m : Memory) (ks : List Nat) : Memory :=
  ks.foldl (fun m k => Memory.writeWord m k (Script.packWord bs k)) m

theorem placeAt_script_secretWord {p : Params} {k : Nat} (hk : 4 * k < p.secretMax) :
    placeAt p (offsetOf (Script.ixOf (secretBase + 4 * k))) = .secretW k ∧ Script.ixOf (secretBase + 4 * k) ≠ 0 := by
  have hmax : p.secretMax ≤ 4 * 960 := Nat.mul_le_mul_left 4 p.secretWordsLess1.isLt
  have hix : (Script.ixOf (secretBase + 4 * k)).toNat = 64 + k := ixOf_secret (by omega)
  constructor
  · rw [placeAt_secretWord (by omega) (by omega), hix, Nat.add_sub_cancel_left]
  · exact index_ne_zero (by omega)

/-- A run over words of a secret writes them. -/
theorem run_secretWords (bs : List Byte) (rest : List HostEvent) (r : Nat) (ks : List Nat) (s : State)
    (hks : ∀ k ∈ ks, 4 * k < s.params.secretMax)
    (h : s.pending = ks.map (fun k => Script.wr (secretBase + 4 * k) (Script.packWord bs k)) ++ rest) :
    Sys2Proof.core.run (ks.length + r) s =
      Sys2Proof.core.run r { s with secret := storeWords bs s.secret ks, pending := rest } := by
  induction ks generalizing s with
  | nil =>
    rw [List.length_nil, Nat.zero_add]
    congr 1
    cases s
    cases h
    rfl
  | cons k ks ih =>
    obtain ⟨hplace, hix⟩ := placeAt_script_secretWord (hks k List.mem_cons_self)
    rw [List.length_cons, Nat.add_right_comm]
    exact (run_store (.secretW k) h hplace hix).trans (ih _ (fun k' hk' => hks k' (List.mem_cons_of_mem k hk')) rfl)

/-- After the first `n` words, the bytes below `4n` are the secret's and the rest is as before. -/
theorem storeWords_range (bs : List Byte) (m : Memory) (hwf : Memory.wf m = true) (n : Nat) :
    Memory.wf (storeWords bs m (List.range n)) = true ∧
    ∀ a, Memory.read (storeWords bs m (List.range n)) a = if a < 4 * n then bs.getD a 0 else Memory.read m a := by
  induction n with
  | zero => exact ⟨hwf, fun a => rfl⟩
  | succ n ih =>
    obtain ⟨hwf', hread⟩ := ih
    have hlast : storeWords bs m (List.range (n + 1)) =
        Memory.writeWord (storeWords bs m (List.range n)) n (Script.packWord bs n) := by
      rw [storeWords, List.range_succ, List.foldl_append]
      rfl
    rw [hlast]
    refine ⟨Memory.wf_writeWord _ _ _ hwf', fun a => ?_⟩
    rw [Memory.read_writeWord _ _ _ _ hwf', hread]
    by_cases hword : 4 * n ≤ a ∧ a < 4 * n + 4
    · rw [if_pos hword, if_pos (by omega), byteOf_packWord _ _ _ (by omega), Nat.add_sub_cancel' hword.1]
    · rw [if_neg hword]
      congr 1
      exact propext ⟨fun _ => by omega, fun _ => by omega⟩

/-- A key whose bytes are those of a sequence of its length is that sequence. -/
theorem readBytes_eq_of_read {m : Memory} {bs : List Byte} (h : ∀ a < bs.length, Memory.read m a = bs.getD a 0) :
    Memory.readBytes m 0 bs.length = bs := by
  refine List.ext_getElem (Memory.readBytes_length m 0 _) fun a _ ha => ?_
  simp only [Memory.readBytes, List.getElem_map, List.getElem_range, Nat.zero_add, h a ha]
  exact (List.getElem_eq_getD 0).symm

/-- Settles O46: the words of the script are those of `storeWords_range`, and the last access stores the length. -/
theorem secretScriptLoadsTheKey : Obligations.SecretScriptLoadsTheKey := by
  unfold Obligations.SecretScriptLoadsTheKey
  intro s bs hlen h hwf
  have hmax : s.params.secretMax = 4 * (s.params.secretWordsLess1.val + 1) := rfl
  have hwords := s.params.secretWordsLess1.isLt
  have hevents : (Script.secret bs).length = (List.range ((bs.length + 3) / 4)).length + 1 := by simp [Script.secret]
  have hfits : ∀ k ∈ List.range ((bs.length + 3) / 4), 4 * k < s.params.secretMax := by
    intro k hk
    rw [List.mem_range] at hk
    omega
  obtain ⟨hwf', hread⟩ := storeWords_range bs s.secret hwf ((bs.length + 3) / 4)
  have hkeyLen : (BitVec.ofNat 16 bs.length).toNat = bs.length := by
    rw [BitVec.toNat_ofNat]
    omega
  refine ⟨{ s with
    secret := storeWords bs s.secret (List.range ((bs.length + 3) / 4))
    secretLen := BitVec.ofNat 16 bs.length
    pending := [] }, ?run, ?key, hwf', fun a ha => ?beyond, rfl⟩
  case run =>
    rw [hevents, run_secretWords bs _ 1 _ s hfits h, run_store .secretLen rfl rfl (by decide)]
    simp only [storePlace, extractLsb'_ofNat _ (by decide : 16 ≤ 32)]
    rfl
  case key =>
    rw [secretKey, hkeyLen]
    exact readBytes_eq_of_read fun a ha => by rw [hread, if_pos (by omega)]
  case beyond => rw [hread, if_neg (by omega)]

end Sys2Proof.Proofs
end
